-- ==== Sys2Proof/Word.lean ====
section
/-!
DEFINITION. The number types of the manual and the fixed-size table.

Figures that the manual counts (bytes, microseconds, power points) are `Nat`.  A bit vector stands only
where the manual numbers bits: bytes on a line, sets of sub-bands, masks of events, shift registers.
-/
namespace Sys2Proof

/-- One byte of a record or frame (R171). -/
abbrev Byte := BitVec 8

/-- An epoch number: 0–1,023, with arithmetic modulo 1,024 (R3). -/
abbrev Epoch := Fin 1024

/-- A context index, 0–255 (R4). -/
abbrev Index := Fin 256

/-- A station number, 0–7 (R132, R143). -/
abbrev Station := Fin 8

/-- A set of sub-bands: bit `b` stands for sub-band `b`, positions 0–23 (R143, R178). -/
abbrev SubBands := BitVec 24

/-- A direction: downlink or uplink. -/
inductive Direction where
  | dl
  | ul
  deriving DecidableEq, Repr

/-- A fixed number `n` of like records, held as a list that carries its own length. -/
structure Table (α : Type) (n : Nat) where
  /-- The records, position 0 first. -/
  list : List α
  /-- There are exactly `n` of them. -/
  size : list.length = n
  deriving DecidableEq, Repr

/-- The record at position `i`. -/
def Table.get {α : Type} {n : Nat} (t : Table α n) (i : Fin n) : α :=
  t.list[i.val]'(by rw [t.size]; exact i.isLt)

/-- The table with the record at position `i` replaced. -/
def Table.set {α : Type} {n : Nat} (t : Table α n) (i : Fin n) (a : α) : Table α n :=
  ⟨t.list.set i.val a, by rw [List.length_set]; exact t.size⟩

/-- The table with every record passed through `f`. -/
def Table.map {α : Type} {n : Nat} (t : Table α n) (f : α → α) : Table α n :=
  ⟨t.list.map f, by rw [List.length_map]; exact t.size⟩

/-- The table with every record passed through `f` together with its position. -/
def Table.mapWith {α : Type} {n : Nat} (t : Table α n) (f : Fin n → α → α) : Table α n :=
  ⟨List.zipWith f (List.finRange n) t.list, by
    rw [List.length_zipWith, List.length_finRange, t.size, Nat.min_self]⟩

/-- A table of `n` equal records. -/
def Table.fill {α : Type} (n : Nat) (a : α) : Table α n :=
  ⟨List.replicate n a, List.length_replicate⟩

/-- The positions whose record satisfies `p`, in ascending order. -/
def Table.positions {α : Type} {n : Nat} (t : Table α n) (p : α → Bool) : List (Fin n) :=
  ((List.finRange n).zip t.list).filterMap fun ia => if p ia.2 then some ia.1 else none

/-- The number of records that satisfy `p`. -/
def Table.count {α : Type} {n : Nat} (t : Table α n) (p : α → Bool) : Nat :=
  (t.list.filter p).length

end Sys2Proof
end

