-- ==== Sys2Proof/Syntax.lean ====
section
/-!
DEFINITION. The commands of the part: one constructor of `Instr` per row of spec/opcode_table.json,
with the operands the row's record, frame or event carries.
-/
namespace Sys2Proof

/-- The fields of a CONFIG body exactly as the 47 bytes carry them, before any clamp (R174). -/
structure ConfigBody where
  /-- Byte 0: bits 0–2 for 12, 16 and 24 sub-bands, bit 7 for edge capability. -/
  counts : Byte
  budget : BitVec 16
  floorShare : BitVec 16
  rampStep : BitVec 16
  t1 : BitVec 16
  t2 : BitVec 16
  /-- Bit `j` for station `j`. -/
  adjacency : Byte
  advanceLimit : BitVec 16
  tailGuard : Byte
  maxShadow : Byte
  window : Byte
  redoMax : Byte
  redoDistance : Byte
  idleTimer : BitVec 16
  admitTimeout : Byte
  ageLimit : BitVec 16
  edgeGrade : Byte
  quietGrade : Byte
  tMin : Byte
  tMax : Byte
  updateInterval : Byte
  holdDown : BitVec 16
  maxSubscribers : BitVec 16
  /-- 1 for KEEP; any other value is BAR. -/
  overrun : Byte
  /-- Bit `k` for event `k`. -/
  enables : BitVec 32
  /-- Two bits per event: event `k` in bits 2k+1 and 2k. -/
  levels : BitVec 64
  threshold : Byte
  deriving DecidableEq, Repr

/-- An inbound record of the sector link with the figures it carries (R162, R173). -/
inductive Record where
  | config (body : ConfigBody)
  | realign
  | attach (index : Index) (ident cls weight rtd : Nat)
  | release (index : Index)
  | range (index : Index) (rtd : Nat)
  | channel (index : Index) (dlGrade ulGrade : Nat)
  | dlData (index : Index) (bytes : Nat)
  | ulBuf (index : Index) (bytes : Nat)
  | late (index : Index) (excess : Nat)
  | feedback (epoch : Epoch) (planIndex : Nat) (fail : Bool)
  | receipt (epoch : Epoch)
  | floor (requested : Nat)
  | query (index : Index)
  | statusReq (zero : Bool)
  | clear (mask : BitVec 32)
  deriving DecidableEq, Repr

/-- The fields of a received ANNOUNCE frame exactly as its bytes carry them (R179). -/
structure AnnounceFrame where
  station : Station
  opState : BitVec 2
  /-- 65,535 is the unaligned indication. -/
  epoch : BitVec 16
  target : BitVec 16
  claim : BitVec 16
  reserved : SubBands
  demand : Byte
  /-- 0, 1, 2 for 12, 16, 24 sub-bands; 3 for none. -/
  modeCode : BitVec 2
  modeEdge : Bool
  deriving DecidableEq, Repr

/-- The fields of a received ABILITY frame exactly as its bytes carry them (R179). -/
structure AbilityFrame where
  station : Station
  opState : BitVec 2
  /-- 65,535 is the unaligned indication. -/
  epoch : BitVec 16
  c12 : Bool
  c16 : Bool
  c24 : Bool
  edge : Bool
  deriving DecidableEq, Repr

/-- One block's part of the work of an EPOCH pulse.  The manual leaves open in which order the blocks take
one pulse (R13, R60, R102, R111, R124, R154, R156); a pulse command lists the parts that are taken
inside it, in their order, with the frames that the Peer Table takes between them (R111, R123). -/
inductive PulseTask where
  /-- Entry to HOLDING caused by an EPOCH_FAULT judged at this pulse (R156). -/
  | entry
  /-- The test of the listening conditions and the common-mode decision (R154). -/
  | decide
  /-- The Allocation Engine's abort and start, with the PAU's computation and the snapshot (R59, R60, R109). -/
  | start
  /-- The SCT's admission and idle counts (R11, R13). -/
  | counts
  /-- Every admission timeout that the counts have reached (R11). -/
  | timeouts
  /-- Every entry to DORMANT that the counts have reached (R14). -/
  | dormancy
  /-- The Peer Table's silence counts and settle count (R145, R148). -/
  | ageing
  /-- Every passage from PRESENT to STALE that is due (R145). -/
  | stale
  /-- Every passage to ABSENT that is due (R145). -/
  | absent
  /-- The void of the batch for the epoch begun (R90). -/
  | batchVoid
  /-- The expiry of unanswered grants (R96). -/
  | grantExpiry
  /-- The removal of redo entries whose deadline has passed (R101). -/
  | redoDrop
  /-- The removal of hold-down entries that expire (R129). -/
  | holdDown
  /-- The ERU's update event (R125). -/
  | update
  /-- A valid ANNOUNCE frame taken between two parts of the work (R111, R123). -/
  | announce (frame : AnnounceFrame) (acrossPulse : Bool)
  /-- A valid ABILITY frame taken between two parts of the work (R111, R123). -/
  | ability (frame : AbilityFrame) (acrossPulse : Bool)
  deriving DecidableEq, Repr

/-- The commands of the part: one constructor for each row of the opcode table. -/
inductive Instr where
  /-- Assertion of RESET_N with the station number strapped on STN[2:0]. -/
  | hardReset (station : Station)
  | config (body : ConfigBody)
  | realign
  | attach (index : Index) (ident cls weight rtd : Nat)
  | release (index : Index)
  | dlData (index : Index) (bytes : Nat)
  | ulBuf (index : Index) (bytes : Nat)
  | channel (index : Index) (dlGrade ulGrade : Nat)
  | range (index : Index) (rtd : Nat)
  | late (index : Index) (excess : Nat)
  | feedback (epoch : Epoch) (planIndex : Nat) (fail : Bool)
  | receipt (epoch : Epoch)
  | floor (requested : Nat)
  | query (index : Index)
  | statusReq (zero : Bool)
  | clear (mask : BitVec 32)
  /-- Bytes of the receive line in their order, up to the last byte of a record: idle bytes and other bytes before its
  start byte may stand in front (R171). -/
  | recordReceived (bytes : List Byte)
  /-- A run of `count` consecutive idle bytes. -/
  | idlePatternReceived (count : Nat)
  | linkLoss
  | recordSent
  /-- An EPOCH pulse without MARK, `interval` nanoseconds after the pulse before it. -/
  | epochPulse (interval : Nat) (order : List PulseTask)
  | epochLoss
  /-- An EPOCH pulse carrying MARK, `interval` nanoseconds after the pulse before it. -/
  | markPulse (interval : Nat) (order : List PulseTask)
  | batchVoid
  | grantExpiry
  | redoDrop
  | attachTimeout (index : Index)
  | goDormant (index : Index)
  | updateEvent
  | holdDownExpiry
  | peerStale (station : Station)
  | peerAbsent (station : Station)
  | runCompletion
  | busIdleDetected
  | deferralExpired
  /-- The line becomes busy after `elapsed` deferral units have been counted down. -/
  | deferralInterrupted (elapsed : Nat)
  | frameSent
  | collision
  | busJabber
  /-- A valid ANNOUNCE frame; `acrossPulse` says that an EPOCH pulse was taken while it was on the line. -/
  | announceReceived (frame : AnnounceFrame) (acrossPulse : Bool)
  /-- A valid ABILITY frame; `acrossPulse` as for ANNOUNCE. -/
  | abilityReceived (frame : AbilityFrame) (acrossPulse : Bool)
  /-- The whole bytes of a frame taken from the line, and whether it ended part-way through a byte. -/
  | busCrc (bytes : List Byte) (partialByte : Bool)
  /-- The bytes received after the start byte before framing was lost. -/
  | framingLost (received : List Byte)
  deriving DecidableEq, Repr

/-- The record that a record command names, for the rows that are inbound records. -/
def Instr.record? : Instr → Option Record
  | .config b => some (.config b)
  | .realign => some .realign
  | .attach i d c w r => some (.attach i d c w r)
  | .release i => some (.release i)
  | .dlData i n => some (.dlData i n)
  | .ulBuf i n => some (.ulBuf i n)
  | .channel i d u => some (.channel i d u)
  | .range i r => some (.range i r)
  | .late i e => some (.late i e)
  | .feedback e p f => some (.feedback e p f)
  | .receipt e => some (.receipt e)
  | .floor f => some (.floor f)
  | .query i => some (.query i)
  | .statusReq z => some (.statusReq z)
  | .clear m => some (.clear m)
  | .hardReset _ | .recordReceived _ | .idlePatternReceived _ | .linkLoss | .recordSent
  | .epochPulse _ _ | .epochLoss | .markPulse _ _ | .batchVoid | .grantExpiry | .redoDrop
  | .attachTimeout _ | .goDormant _ | .updateEvent | .holdDownExpiry | .peerStale _ | .peerAbsent _
  | .runCompletion | .busIdleDetected | .deferralExpired | .deferralInterrupted _ | .frameSent
  | .collision | .busJabber | .announceReceived _ _ | .abilityReceived _ _ | .busCrc _ _
  | .framingLost _ => none

end Sys2Proof
end

