-- ==== Sys2Proof/Decode.lean ====
section
/-!
DEFINITION. The command a word of the opcode table spells.

The table gives no row any bits: commands reach the part as records, frames and pin events, never as opcode words.
-/
namespace Sys2Proof

/-- The command that the table's bits spell: none, since no row of the table gives bits. -/
def decodeTableWord (_nbits _w : Nat) : Option Instr := none

end Sys2Proof
end

