-- ==== Sys2Proof/Config.lean ====
section
/-!
DEFINITION. What every DN-416 fixes once: capacities, limits and nominal figures, each from the rule its
docstring names, and the one free value of the model.
-/
namespace Sys2Proof.Config

/-- Records the inbound FIFO holds (R161). -/
def fifoDepth : Nat := 64

/-- Records the outbound queue holds (R163). -/
def outboundDepth : Nat := 32

/-- A NOTICE handed over with this many or fewer free outbound entries is not queued (R163). -/
def noticeReserve : Nat := 8

/-- A record that needs a reply waits while this many or fewer outbound entries are free (R162). -/
def replyReserve : Nat := 4

/-- READY is deasserted while this many or fewer inbound entries are free (R161). -/
def readyReserve : Nat := 4

/-- Entries the Redo List holds (R98). -/
def redoDepth : Nat := 48

/-- An insertion that leaves exactly this many free redo entries sets REDO_NEAR_FULL (R100). -/
def redoNearFull : Nat := 4

/-- The largest backlog and the largest average (R5, R55). -/
def backlogMax : Nat := 1048575

/-- Where every counter holds (R169). -/
def counterMax : Nat := 65535

/-- Where COUNTER_HALF is set (R169). -/
def counterHalf : Nat := 32768

/-- Bytes per unit of the bytes-lost counter (R169). -/
def lostUnit : Nat := 64

/-- The value an epoch field carries for the unaligned indication, an absent epoch or no allowance (R175). -/
def absentField : Nat := 65535

/-- Grants a direction of a plan holds (R67). -/
def grantsMax : Nat := 16

/-- The most tiles a downlink grant is sized for (R68). -/
def tilesMax : Nat := 48

/-- Slots of an epoch (R1). -/
def slots : Nat := 8

/-- The scale of the metric (R49). -/
def metricScale : Nat := 32768

/-- The figure added to the average in the metric's divisor (R49). -/
def metricOffset : Nat := 64

/-- The silence count at which a record becomes STALE (R145). -/
def staleAt : Nat := 4

/-- The silence count at which a record becomes ABSENT (R145). -/
def absentAt : Nat := 64

/-- Where the settle count and the listened count hold (R148, R149). -/
def listenMax : Nat := 255

/-- The listened count the listening conditions ask for (R154). -/
def listenedNeeded : Nat := 16

/-- The settle count the listening conditions ask for (R154). -/
def settleNeeded : Nat := 8

/-- The link-loss time in microseconds (R165). -/
def linkLossTime : Nat := 10000

/-- Consecutive idle bytes of the shortest valid idle (R171). -/
def idleRun : Nat := 8

/-- The largest claim a record of a peer holds (R143, R180). -/
def claimMax : Nat := 4095

/-- The largest edge demand a record of a peer holds (R143, R180). -/
def demandMax : Nat := 192

/-- FREE VALUE.  The kind byte that LINK_ERROR names when framing is lost before a kind byte has been
received: R159 gives the subject "as received" and states none for this case.  Applied to the model's
count of free values taken, so that each occasion has a value of its own. -/
opaque unreceivedKind : Nat → Byte

end Sys2Proof.Config
end

