-- ==== Sys2Proof/Machine/State.lean ====
section
/-!
DEFINITION. The state of the DN-416, block by block as the manual's block table lists its owners, the state
right after hard reset, and the reasons a step can stop.
-/
namespace Sys2Proof.Machine

/-! ## Subscriber Context Table (chapter 1) -/

/-- The five states of a context (R5). -/
inductive ContextState where
  | free
  | admitting
  | active
  | dormant
  | closing
  deriving DecidableEq, Repr

/-- One subscriber context record (R5). -/
structure Context where
  state : ContextState
  ident : Nat
  /-- Accepted ATTACH records for this index, modulo 256 (R7). -/
  attachNo : Fin 256
  cls : Nat
  weight : Nat
  dlGrade : Nat
  ulGrade : Nat
  dlBacklog : Nat
  ulBacklog : Nat
  avgDl : Nat
  avgUl : Nat
  rtd : Nat
  lateMargin : Nat
  strikes : Nat
  ulBarred : Bool
  lastServedDl : Option Epoch
  lastServedUl : Option Epoch
  idleCount : Nat
  admitCount : Nat
  outstanding : Nat
  deriving DecidableEq, Repr

/-- A context after hard reset (R6). -/
def Context.reset : Context :=
  { state := .free, ident := 0, attachNo := 0, cls := 0, weight := 1, dlGrade := 0, ulGrade := 0,
    dlBacklog := 0, ulBacklog := 0, avgDl := 0, avgUl := 0, rtd := 0, lateMargin := 0, strikes := 0,
    ulBarred := false, lastServedDl := none, lastServedUl := none, idleCount := 0, admitCount := 0,
    outstanding := 0 }

/-! ## Modes, abilities and the values in force -/

/-- A sub-band count of a common mode (R149). -/
inductive BandCount where
  | s12
  | s16
  | s24
  deriving DecidableEq, Repr

/-- A set of supported sub-band counts (R133, R150). -/
structure Counts where
  c12 : Bool
  c16 : Bool
  c24 : Bool
  deriving DecidableEq, Repr

/-- An ability word: supported counts and edge capability (R133, R143). -/
structure Ability where
  counts : Counts
  edge : Bool
  deriving DecidableEq, Repr

/-- A common mode: the sub-band count and the edge setting (R149). -/
structure Mode where
  bands : BandCount
  edge : Bool
  deriving DecidableEq, Repr

/-- The configured quantities in force (R108, R120, R150).  Enables, levels and the ALERT threshold stand in
the Event Unit; the adjacent flags stand in the Peer Table as well. -/
structure Params where
  counts : Counts
  edgeCapable : Bool
  /-- B -/
  budget : Nat
  /-- Φ -/
  floorShare : Nat
  rampStep : Nat
  t1 : Nat
  t2 : Nat
  /-- Bit `j` for station `j`, the own station removed. -/
  adjacency : Byte
  advanceLimit : Nat
  /-- G -/
  tailGuard : Nat
  maxShadow : Nat
  /-- W -/
  window : Nat
  redoMax : Nat
  /-- D -/
  redoDistance : Nat
  idleTimer : Nat
  admitTimeout : Nat
  /-- S_age; 0 is off -/
  ageLimit : Nat
  /-- E -/
  edgeGrade : Nat
  /-- Q -/
  quietGrade : Nat
  tMin : Nat
  tMax : Nat
  /-- U -/
  updateInterval : Nat
  /-- H -/
  holdDown : Nat
  /-- N_max -/
  maxSubscribers : Nat
  /-- Overrun policy KEEP; BAR otherwise. -/
  keepPolicy : Bool
  deriving DecidableEq, Repr

/-- The values held before the first CONFIG: the lowest value each range of R108, R120 and R150 allows.
DESIGN CHOICE (assumption 2), unsafe: the manual gives none, and no rule reads them before CONFIG. -/
def Params.reset : Params :=
  { counts := ⟨true, true, true⟩, edgeCapable := false, budget := 64, floorShare := 0, rampStep := 8,
    t1 := 0, t2 := 0, adjacency := 0, advanceLimit := 0, tailGuard := 0, maxShadow := 0, window := 2,
    redoMax := 0, redoDistance := 2, idleTimer := 16, admitTimeout := 16, ageLimit := 0, edgeGrade := 1,
    quietGrade := 9, tMin := 0, tMax := 0, updateInterval := 4, holdDown := 8, maxSubscribers := 1,
    keepPolicy := false }

/-! ## Tracking: Batch Ring, Outstanding Grant Table, Redo List (chapter 5) -/

/-- The pair that names a grant: target epoch and plan index. -/
structure Tag where
  epoch : Epoch
  index : Nat
  deriving DecidableEq, Repr

/-- The status of a batch record (R86). -/
inductive BatchStatus where
  | none
  | sent
  | committed
  | void
  | missed
  deriving DecidableEq, Repr

/-- One record of the Batch Ring (R86). -/
structure BatchRecord where
  target : Option Epoch
  status : BatchStatus
  deriving DecidableEq, Repr

/-- An empty batch record (R86). -/
def BatchRecord.empty : BatchRecord := { target := Option.none, status := .none }

/-- The epoch and serial of a redo entry's creation (R98). -/
structure CreationOrder where
  epoch : Epoch
  serial : Nat
  deriving DecidableEq, Repr

/-- What the OGT keeps of a consumed redo entry, for its return on a void (R92). -/
structure RedoOrigin where
  tag : Tag
  deadline : Epoch
  order : CreationOrder
  deriving DecidableEq, Repr

/-- One entry of the Outstanding Grant Table (R92). -/
structure OgtEntry where
  tag : Tag
  context : Index
  direction : Direction
  width : Nat
  height : Nat
  grade : Nat
  bytes : Nat
  /-- COMMITTED; SENT otherwise. -/
  committed : Bool
  feedbackDeadline : Epoch
  redoNumber : Nat
  origin : Option RedoOrigin
  deriving DecidableEq, Repr

/-- One entry of the Redo List (R98). -/
structure RedoEntry where
  context : Index
  direction : Direction
  width : Nat
  height : Nat
  grade : Nat
  bytes : Nat
  redoNumber : Nat
  origin : Tag
  deadline : Epoch
  order : CreationOrder
  deriving DecidableEq, Repr

/-- The Outstanding Grant Table, the Batch Ring and the Redo List with its serial. -/
structure Tracking where
  ring : Table BatchRecord 16
  /-- In the order of insertion, which is ascending tag order. -/
  ogt : List OgtEntry
  /-- In deadline order, equal deadlines in creation order. -/
  redo : List RedoEntry
  /-- Entries created in the current epoch (R98). -/
  serial : Nat
  deriving DecidableEq, Repr

/-- The tracking state after hard reset (R105). -/
def Tracking.reset : Tracking := { ring := Table.fill 16 BatchRecord.empty, ogt := [], redo := [], serial := 0 }

/-! ## Allocation Engine (chapters 3 and 4) -/

/-- The state of one tile of a working grid (R66). -/
inductive Tile where
  | free
  | carried
  | taken
  | shadow
  deriving DecidableEq, Repr

/-- A working grid: one list of slots per sub-band (R66). -/
abbrev Grid := List (List Tile)

/-- What a snapshot holds of a context that is not FREE (R60). -/
structure SnapContext where
  index : Index
  state : ContextState
  attachNo : Fin 256
  ident : Nat
  cls : Nat
  weight : Nat
  dlGrade : Nat
  ulGrade : Nat
  dlBacklog : Nat
  ulBacklog : Nat
  avgDl : Nat
  avgUl : Nat
  lastServedDl : Option Epoch
  lastServedUl : Option Epoch
  rtd : Nat
  lateMargin : Nat
  ulBarred : Bool
  deriving DecidableEq, Repr

/-- The snapshot of a run (R60). -/
structure Snapshot where
  contexts : List SnapContext
  redo : List RedoEntry
  allowance : Nat
  powerFloor : Nat
  requestedFloor : Nat
  /-- The carry set taken by this run (R61). -/
  carry : List (Nat × Nat)
  ownSet : SubBands
  blockedSet : SubBands
  epoch : Epoch
  bands : BandCount
  /-- T_slot in microseconds. -/
  slotTime : Nat
  edgeGrade : Nat
  quietGrade : Nat
  ageLimit : Nat
  advanceLimit : Nat
  tailGuard : Nat
  maxShadow : Nat
  deriving DecidableEq, Repr

/-- A new-data candidate entry (R43). -/
structure Candidate where
  context : Index
  cls : Nat
  effectiveClass : Nat
  metric : Nat
  grade : Nat
  backlog : Nat
  rtd : Nat
  lateMargin : Nat
  deriving DecidableEq, Repr

/-- One entry of a direction's order: a redo entry or a new-data candidate (R53). -/
inductive OrderEntry where
  | redo (entry : RedoEntry)
  | fresh (candidate : Candidate)
  deriving DecidableEq, Repr

/-- A run in flight: its target, its snapshot, the two ranked orders and the two working grids. -/
structure Run where
  target : Epoch
  snapshot : Snapshot
  dlOrder : List OrderEntry
  ulOrder : List OrderEntry
  dlGrid : Grid
  ulGrid : Grid
  deriving DecidableEq, Repr

/-- The Allocation Engine: the run state (IDLE is `none`), the carry list and the requested floor. -/
structure Engine where
  run : Option Run
  carrySource : Option Epoch
  carryTiles : List (Nat × Nat)
  requestedFloor : Nat
  deriving DecidableEq, Repr

/-- The Allocation Engine after hard reset (R58, R85). -/
def Engine.reset : Engine := { run := none, carrySource := none, carryTiles := [], requestedFloor := 0 }

/-! ## Power Allowance Unit and Edge Reservation Unit (chapters 6 and 7) -/

/-- The items of the PAU (R107). -/
structure Power where
  pPrev : Nat
  allowance : Option Nat
  powerFloor : Nat
  deriving DecidableEq, Repr

/-- The PAU after hard reset (R107). -/
def Power.reset : Power := { pPrev := 0, allowance := none, powerFloor := 0 }

/-- One entry of the hold-down list (R119). -/
structure HoldDown where
  band : Nat
  expiry : Epoch
  deriving DecidableEq, Repr

/-- The items of the ERU (R119). -/
structure Edge where
  ownSet : SubBands
  holdDown : List HoldDown
  counter : Nat
  demand : Nat
  subBands : Nat
  deriving DecidableEq, Repr

/-- The ERU after hard reset (R119). -/
def Edge.reset : Edge := { ownSet := 0, holdDown := [], counter := 0, demand := 0, subBands := 0 }

/-! ## Alignment Control (chapter 9) -/

/-- The operating state (R149). -/
inductive OpState where
  | unconfigured
  | listening
  | operating
  | holding
  deriving DecidableEq, Repr

/-- The state of the epoch watch (R149). -/
inductive WatchState where
  | unset
  | regular
  | faulty
  | lost
  deriving DecidableEq, Repr

/-- The measured epoch period (R149). -/
inductive Period where
  | ms2
  | ms4
  deriving DecidableEq, Repr

/-- The items of Alignment Control (R149). -/
structure Alignment where
  opState : OpState
  mode : Option Mode
  /-- `none` is unaligned. -/
  epoch : Option Epoch
  watch : WatchState
  /-- A pulse has been taken since entry to LISTENING, so the next interval can be judged (R153). -/
  timing : Bool
  period : Option Period
  listened : Nat
  station : Station
  /-- The epoch count before the last pulse, for a frame that a pulse overtakes on the line (R146). -/
  lastEpoch : Option Epoch
  deriving DecidableEq, Repr

/-- Alignment Control after hard reset with the given strapping (R149). -/
def Alignment.reset (station : Station) : Alignment :=
  { opState := .unconfigured, mode := none, epoch := none, watch := .unset, timing := false, period := none,
    listened := 0, station := station, lastEpoch := none }

/-! ## Site Bus Port and Peer Table (chapter 8) -/

/-- A frame due at the Site Bus Port.  Its epoch field is written when an attempt begins (R133). -/
inductive BusFrame where
  | announce (station : Station) (opState : OpState) (target : Epoch) (claim : Nat) (reserved : SubBands)
      (demand : Nat) (mode : Option Mode)
  | ability (station : Station) (opState : OpState) (word : Ability)
  deriving DecidableEq, Repr

/-- The access state of the transmit side (R132). -/
inductive Access where
  | empty
  | waiting
  | deferring
  | sending
  deriving DecidableEq, Repr

/-- The transmit side of the Site Bus Port, the deferral generator, the jabber state and the idle watch. -/
structure BusPort where
  due : Option BusFrame
  access : Access
  attempt : Nat
  /-- Deferral units remaining, 0–31. -/
  units : Nat
  /-- The units remaining are kept from an interruption, so no new draw is taken (R135). -/
  keepsUnits : Bool
  /-- A frame that became due while the due frame was SENDING (R134). -/
  newer : Option BusFrame
  /-- REALIGN was taken during the attempt on the line: it is not retried (R140). -/
  noRetry : Bool
  /-- The epoch field written as the attempt on the line began; 65,535 is the unaligned indication. -/
  airEpoch : Nat
  /-- The deferral generator's register (R137). -/
  generator : BitVec 16
  /-- The transmitter is cut off (R138). -/
  cutOff : Bool
  /-- The idle watch has been started by a pulse (R139). -/
  watchStarted : Bool
  /-- 16 µs of idle line have been seen since the last pulse (R139). -/
  idleSeen : Bool
  /-- The last whole epoch held no idle interval (R139). -/
  stuck : Bool
  /-- The own transmitter has stopped inside a frame and no idle line has followed: what remains of another station's
  frame is not taken (R141). -/
  midFrame : Bool
  /-- The last frame sent whole, with its epoch field: what the pair SBP, SBN carried. -/
  lastSent : Option (BusFrame × Nat)
  deriving DecidableEq, Repr

/-- The Site Bus Port after hard reset (R132, R137). -/
def BusPort.reset (station : Station) : BusPort :=
  { due := none, access := .empty, attempt := 1, units := 0, keepsUnits := false, newer := none,
    noRetry := false, airEpoch := 0, generator := BitVec.ofNat 16 (257 * (station.val + 1)), cutOff := false,
    watchStarted := false, idleSeen := false, stuck := false, midFrame := false, lastSent := none }

/-- How recently a station was heard (R143). -/
inductive PeerState where
  | absent
  | present
  | stale
  deriving DecidableEq, Repr

/-- One record of the Peer Table (R143).  The incompatible flag is computed: `Peer.incompatible`. -/
structure Peer where
  state : PeerState
  silence : Nat
  ability : Option Ability
  claim : Nat
  reserved : SubBands
  demand : Nat
  misaligned : Bool
  excluded : Bool
  mismatch : Bool
  adjacent : Bool
  deriving DecidableEq, Repr

/-- A record of the Peer Table after hard reset (R143). -/
def Peer.reset : Peer :=
  { state := .absent, silence := 64, ability := none, claim := 0, reserved := 0, demand := 0,
    misaligned := false, excluded := false, mismatch := false, adjacent := false }

/-- The Peer Table with its settle count (R143, R148). -/
structure PeerTable where
  records : Table Peer 8
  settle : Nat
  deriving DecidableEq, Repr

/-- The Peer Table after hard reset (R143, R148). -/
def PeerTable.reset : PeerTable := { records := Table.fill 8 Peer.reset, settle := 0 }

/-! ## Event Unit (chapter 11) -/

/-- The event kinds in the order of the table of R166, which numbers them 0–28 (R173). -/
inductive EventKind where
  | planMissed
  | batchVoid
  | lateReceipt
  | strayReceipt
  | strayFeedback
  | redoDrop
  | redoOverflow
  | redoNearFull
  | attachRefused
  | attachTimeout
  | released
  | ulBarred
  | dlDataSaturated
  | epochLoss
  | epochFault
  | markerSlip
  | linkError
  | linkOverrun
  | linkLoss
  | busJabber
  | busStuck
  | busCrc
  | duplicateStation
  | peerAbsent
  | peerMisaligned
  | peerIncompatible
  | modeSet
  | shortage
  | counterHalf
  deriving DecidableEq, Repr

/-- The codes of a NOTICE (R175). -/
inductive Code where
  | none
  | notReady
  | inUse
  | full
  | notAttached
  | closing
  | done
  | dl
  | ul
  | refund
  | range
  | lateness
  | missed
  | unknown
  | premature
  | deadline
  | limit
  | check
  | kind
  | length
  /-- A figure carried as a code: the power floor of SHORTAGE, the S of MODE_SET. -/
  | figure (n : Nat)
  deriving DecidableEq, Repr

/-- The fourteen counters in the order of the table of R169. -/
inductive Counter where
  | busCrc
  | collisions
  | unsentFrames
  | malformed
  | overruns
  | strayFeedback
  | strayReceipts
  | strayReports
  | redoDrops
  | bytesLost
  | plansMissed
  | batchesVoided
  | grantsStruck
  | unplaced
  deriving DecidableEq, Repr

/-- The Event Unit (R166, R167, R169). -/
structure EventUnit where
  /-- Bit `k` is the flag of event `k`. -/
  flags : BitVec 29
  enables : BitVec 29
  /-- Event `k`'s level in bits 2k+1 and 2k. -/
  levels : BitVec 58
  threshold : Nat
  counters : Table Nat 14
  /-- Bytes lost beyond the last whole 64 counted, 0–63. -/
  remainder : Nat
  /-- The ALERT line. -/
  alert : Bool
  deriving DecidableEq, Repr

/-- The Event Unit after hard reset (R166, R167, R169). -/
def EventUnit.reset : EventUnit :=
  { flags := 0, enables := 0, levels := 0, threshold := 1, counters := Table.fill 14 0, remainder := 0,
    alert := false }

/-! ## Sector Link Port (chapter 10) -/

/-- A NOTICE as composed (R166). -/
structure Notice where
  event : EventKind
  subject : Nat
  code : Code
  /-- The epoch count at the moment of setting; `none` is the unaligned indication. -/
  epoch : Option Epoch
  deriving DecidableEq, Repr

/-- A grant record of a PLAN (R84). -/
structure Grant where
  index : Nat
  context : Index
  ident : Nat
  direction : Direction
  firstBand : Nat
  width : Nat
  firstSlot : Nat
  height : Nat
  grade : Nat
  scheme : Nat
  repetition : Nat
  capacity : Nat
  bytes : Nat
  tilePower : Nat
  redoNumber : Nat
  deriving DecidableEq, Repr

/-- A PLAN record (R82). -/
structure Plan where
  target : Epoch
  dlCount : Nat
  ulCount : Nat
  power : Nat
  allowance : Nat
  effectiveFloor : Nat
  grants : List Grant
  deriving DecidableEq, Repr

/-- One station's line of the Peer Table summary (R170). -/
structure PeerSummary where
  state : PeerState
  silence : Nat
  claim : Nat
  misaligned : Bool
  incompatible : Bool
  adjacent : Bool
  deriving DecidableEq, Repr

/-- A STATUS reply (R170). -/
structure StatusReply where
  opState : OpState
  station : Station
  mode : Option Mode
  epoch : Option Epoch
  watch : WatchState
  period : Option Period
  linkLost : Bool
  cutOff : Bool
  flags : BitVec 29
  counters : Table Nat 14
  remainder : Nat
  pPrev : Nat
  allowance : Option Nat
  powerFloor : Nat
  requestedFloor : Nat
  ownSet : SubBands
  demand : Nat
  subBands : Nat
  heldDown : SubBands
  peers : List PeerSummary
  ogtEntries : Nat
  redoEntries : Nat
  deriving DecidableEq, Repr

/-- An outbound record (R163). -/
inductive OutRecord where
  | plan (p : Plan)
  | notice (n : Notice)
  /-- The context queried, as it stands, with its redo_count (R26). -/
  | context (index : Index) (ctx : Context) (redoCount : Nat)
  | status (r : StatusReply)
  /-- Status ACCEPTED or LOCKED, the values in force and the fields that were clamped. -/
  | configEcho (accepted : Bool) (inForce : ConfigBody) (clamped : BitVec 32)
  deriving DecidableEq, Repr

/-- What the transmitter last ended on the line. -/
inductive LinkOutput where
  /-- A record sent whole. -/
  | whole (r : OutRecord)
  /-- A PLAN ended early by its check word with every bit inverted (R164). -/
  | cut (p : Plan) (check : BitVec 16)
  deriving DecidableEq, Repr

/-- The Sector Link Port: inbound FIFO, READY, outbound queue and link-loss watch. -/
structure LinkPort where
  /-- Head first. -/
  fifo : List Record
  /-- The READY line. -/
  ready : Bool
  /-- The record being sent first. -/
  queue : List OutRecord
  /-- The link-loss watch is LOST; VALID otherwise. -/
  lost : Bool
  /-- The link-loss timer in microseconds, as its restarts and its expiry leave it. -/
  timer : Nat
  /-- The last byte received was an idle byte or ended a record's check word, so that a start byte now begins a record
  (R171). -/
  afterIdle : Bool
  /-- Consecutive idle bytes received, held at the 8 of the shortest valid idle (R171). -/
  idleRun : Nat
  /-- What SLTX+ and SLTX− last carried to its end. -/
  lastOut : Option LinkOutput
  deriving DecidableEq, Repr

/-- The Sector Link Port after hard reset (R161, R163, R165).  The line is taken to stand idle: DESIGN CHOICE
(assumption 32), unsafe. -/
def LinkPort.reset : LinkPort :=
  { fifo := [], ready := true, queue := [], lost := false, timer := 0, afterIdle := true, idleRun := 0,
    lastOut := none }

/-! ## The work of a pulse -/

/-- The model's own field: which parts of the last EPOCH pulse's work have not been taken yet. -/
structure PulseWork where
  /-- Work of the last pulse may remain; every later command outside the pulse but a frame finishes it first. -/
  pending : Bool
  entry : Bool
  decide : Bool
  start : Bool
  counts : Bool
  ageing : Bool
  batchVoid : Bool
  grantExpiry : Bool
  redoDrop : Bool
  holdDown : Bool
  update : Bool
  deriving DecidableEq, Repr

/-- No pulse work remains. -/
def PulseWork.none : PulseWork :=
  { pending := false, entry := false, decide := false, start := false, counts := false, ageing := false,
    batchVoid := false, grantExpiry := false, redoDrop := false, holdDown := false, update := false }

/-! ## The machine -/

/-- The whole state of the part, and the queue of commands that wait. -/
structure State where
  /-- The commands that wait, first in, first out. -/
  pending : List Instr
  contexts : Table Context 256
  engine : Engine
  tracking : Tracking
  power : Power
  edge : Edge
  bus : BusPort
  peers : PeerTable
  align : Alignment
  config : Params
  link : LinkPort
  events : EventUnit
  pulse : PulseWork
  /-- How many free values have been taken. -/
  freeValues : Nat
  deriving DecidableEq, Repr

/-- The machine right after a hard reset with the given strapping, with no command waiting (R149). -/
def State.resetAt (station : Station) : State :=
  { pending := [], contexts := Table.fill 256 Context.reset, engine := .reset, tracking := .reset,
    power := .reset, edge := .reset, bus := .reset station, peers := .reset, align := .reset station,
    config := .reset, link := .reset, events := .reset, pulse := .none, freeValues := 0 }

/-- The machine right after reset.  The strapping of STN[2:0] is the board's; the model takes station 0.
DESIGN CHOICE (assumption 1), unsafe. -/
def State.reset : State := State.resetAt 0

/-- Why a step stops with a fault.  The manual gives every command of the table an effect in every state, so
no meaning answers one; the constructor stands so that the type is not empty.  Safe. -/
inductive Fault where
  /-- Raised by no command. -/
  | unused
  deriving DecidableEq, Repr

/-- Why a step refuses a command. -/
inductive Refusal where
  /-- Raised by `exec` for a row whose meaning is not written; no row is in this case.  Safe. -/
  | notModelled (mnemonic : String)
  deriving DecidableEq, Repr

end Sys2Proof.Machine
end

