-- ==== Sys2Proof/Machine/Flags.lean ====
section
/-!
DEFINITION. The Event Unit: setting a flag and composing its NOTICE, the ALERT line, the counters with
COUNTER_HALF and the bytes-lost remainder, and the causes that make CLEAR leave a flag (chapter 11).
-/
namespace Sys2Proof.Machine

/-- The number of an event kind (R173). -/
def EventKind.num : EventKind → Nat
  | .planMissed => 0
  | .batchVoid => 1
  | .lateReceipt => 2
  | .strayReceipt => 3
  | .strayFeedback => 4
  | .redoDrop => 5
  | .redoOverflow => 6
  | .redoNearFull => 7
  | .attachRefused => 8
  | .attachTimeout => 9
  | .released => 10
  | .ulBarred => 11
  | .dlDataSaturated => 12
  | .epochLoss => 13
  | .epochFault => 14
  | .markerSlip => 15
  | .linkError => 16
  | .linkOverrun => 17
  | .linkLoss => 18
  | .busJabber => 19
  | .busStuck => 20
  | .busCrc => 21
  | .duplicateStation => 22
  | .peerAbsent => 23
  | .peerMisaligned => 24
  | .peerIncompatible => 25
  | .modeSet => 26
  | .shortage => 27
  | .counterHalf => 28

/-- The event kinds in ascending number. -/
def EventKind.all : List EventKind :=
  [.planMissed, .batchVoid, .lateReceipt, .strayReceipt, .strayFeedback, .redoDrop, .redoOverflow,
   .redoNearFull, .attachRefused, .attachTimeout, .released, .ulBarred, .dlDataSaturated, .epochLoss,
   .epochFault, .markerSlip, .linkError, .linkOverrun, .linkLoss, .busJabber, .busStuck, .busCrc,
   .duplicateStation, .peerAbsent, .peerMisaligned, .peerIncompatible, .modeSet, .shortage, .counterHalf]

/-- The number of a counter, 0–13 (R169). -/
def Counter.num : Counter → Fin 14
  | .busCrc => 0
  | .collisions => 1
  | .unsentFrames => 2
  | .malformed => 3
  | .overruns => 4
  | .strayFeedback => 5
  | .strayReceipts => 6
  | .strayReports => 7
  | .redoDrops => 8
  | .bytesLost => 9
  | .plansMissed => 10
  | .batchesVoided => 11
  | .grantsStruck => 12
  | .unplaced => 13

/-- The incompatible flag: yes while excluded or mode mismatch is yes (R143, R147). -/
def Peer.incompatible (p : Peer) : Bool := p.excluded || p.mismatch

/-! ## Flags and the ALERT line -/

/-- The flag of an event is set (R166). -/
def EventUnit.flag (e : EventUnit) (k : EventKind) : Bool := e.flags.getLsbD k.num

/-- An event is enabled (R166). -/
def EventUnit.enabled (e : EventUnit) (k : EventKind) : Bool := e.enables.getLsbD k.num

/-- The level of an event, 0–3 (R166, R174). -/
def EventUnit.level (e : EventUnit) (k : EventKind) : Nat :=
  (e.levels.getLsbD (2 * k.num)).toNat + 2 * (e.levels.getLsbD (2 * k.num + 1)).toNat

/-- A flag meets all three conditions of R167. -/
def EventUnit.assertsAlert (e : EventUnit) (k : EventKind) : Bool :=
  e.flag k && e.enabled k && decide (e.threshold ≤ e.level k)

/-- What the flags, enables, levels and threshold make of the ALERT line (R167). -/
def EventUnit.alertLevel (e : EventUnit) : Bool := EventKind.all.any e.assertsAlert

/-- The Event Unit with ALERT judged anew (R167). -/
def EventUnit.judged (e : EventUnit) : EventUnit := { e with alert := e.alertLevel }

/-- The mask of one event kind. -/
def EventKind.bit (k : EventKind) : BitVec 29 := 1#29 <<< k.num

/-- The Event Unit with the flag of an event set and ALERT judged anew (R166, R167). -/
def EventUnit.raise (e : EventUnit) (k : EventKind) : EventUnit :=
  EventUnit.judged { e with flags := e.flags ||| k.bit }

/-! ## The outbound queue -/

/-- Free entries of the outbound queue (R163). -/
def LinkPort.outboundFree (l : LinkPort) : Nat := Config.outboundDepth - l.queue.length

/-- A record handed to the transmitter: it follows any record already queued (R163). -/
def LinkPort.enqueue (l : LinkPort) (r : OutRecord) : LinkPort := { l with queue := l.queue ++ [r] }

/-- A NOTICE handed over: it is not queued when 8 or fewer entries are free (R163). -/
def LinkPort.offerNotice (l : LinkPort) (n : Notice) : LinkPort :=
  if l.outboundFree ≤ Config.noticeReserve then l else l.enqueue (.notice n)

/-! ## Setting an event -/

/-- An event is set: its flag becomes set, ALERT is judged, and an enabled event hands over a NOTICE that
carries the subject, the code and the epoch count at that moment (R166, R167). -/
def setEvent (k : EventKind) (subject : Nat) (code : Code) (s : State) : State :=
  { s with
    events := s.events.raise k
    link :=
      if s.events.enabled k then
        s.link.offerNotice { event := k, subject := subject, code := code, epoch := s.align.epoch }
      else s.link }

/-- An epoch as a 2-byte field carries it: 65,535 where there is none (R175). -/
def epochField (e : Option Epoch) : Nat :=
  match e with
  | some n => n.val
  | none => Config.absentField

/-! ## Counters -/

/-- The value of a counter (R169). -/
def EventUnit.counter (e : EventUnit) (c : Counter) : Nat := e.counters.get c.num

/-- A counter advanced by `n`, holding at 65,535 (R169). -/
def EventUnit.advanced (e : EventUnit) (c : Counter) (n : Nat) : EventUnit :=
  { e with counters := e.counters.set c.num (min Config.counterMax (e.counter c + n)) }

/-- Advance a counter by `n`; passing from below 32,768 to 32,768 or more sets COUNTER_HALF (R169). -/
def advance (c : Counter) (n : Nat) (s : State) : State :=
  let counted := { s with events := s.events.advanced c n }
  if s.events.counter c < Config.counterHalf ∧ Config.counterHalf ≤ counted.events.counter c then
    setEvent .counterHalf c.num.val .none counted
  else counted

/-- Count bytes as lost: whole units of 64 advance the counter and the rest stays in the remainder (R169). -/
def loseBytes (n : Nat) (s : State) : State :=
  let total := s.events.remainder + n
  advance .bytesLost (total / Config.lostUnit)
    { s with events := { s.events with remainder := total % Config.lostUnit } }

/-- Every counter and the remainder set to 0 (R170). -/
def EventUnit.zeroed (e : EventUnit) : EventUnit :=
  { e with counters := Table.fill 14 0, remainder := 0 }

/-! ## Causes that persist -/

/-- Some counter stands at 32,768 or more: the persisting cause of COUNTER_HALF (R166). -/
def EventUnit.anyHalf (e : EventUnit) : Bool := e.counters.list.any fun n => decide (Config.counterHalf ≤ n)

/-- The cause of an event persists at this moment (the last column of the table of R166). -/
def causePersists (s : State) : EventKind → Bool
  | .epochLoss => s.align.watch == .lost
  | .epochFault => s.align.watch == .faulty
  | .linkLoss => s.link.lost
  | .busJabber => s.bus.cutOff
  | .busStuck => s.bus.stuck
  | .shortage => decide (0 < s.power.powerFloor)
  | .counterHalf => s.events.anyHalf
  | .planMissed | .batchVoid | .lateReceipt | .strayReceipt | .strayFeedback | .redoDrop | .redoOverflow
  | .redoNearFull | .attachRefused | .attachTimeout | .released | .ulBarred | .dlDataSaturated
  | .markerSlip | .linkError | .linkOverrun | .busCrc | .duplicateStation | .peerAbsent
  | .peerMisaligned | .peerIncompatible | .modeSet => false

/-- The flags with one listed kind cleared unless its cause persists (R168). -/
def clearOne (s : State) (mask : BitVec 32) (flags : BitVec 29) (k : EventKind) : BitVec 29 :=
  if mask.getLsbD k.num && !causePersists s k then flags &&& ~~~k.bit else flags

/-- Each listed kind taken in turn, and ALERT judged after the list (R168). -/
def clearFlags (mask : BitVec 32) (s : State) : State :=
  { s with
    events := EventUnit.judged { s.events with flags := EventKind.all.foldl (clearOne s mask) s.events.flags } }

end Sys2Proof.Machine
end

