-- ==== Sys2Proof/Machine/Operands.lean ====
section
/-!
DEFINITION. Every form in which a figure reaches the part: epoch numbers and their comparison (R3), the byte
order and the check word (R171), the sector link envelope and inbound bodies (R172–R174), the site bus frames
(R179), and the clamps and masks of reception (R159, R160, R180).
-/
namespace Sys2Proof.Machine

/-! ## Epoch numbers (R3) -/

/-- Epoch `a` is later than epoch `b` (R3). -/
def later (a b : Epoch) : Bool := decide (1 ≤ (a - b).val) && decide ((a - b).val ≤ 511)

/-- Epoch `a` is earlier than epoch `b` (R3). -/
def earlier (a b : Epoch) : Bool := decide (513 ≤ (a - b).val)

/-- The epoch `n` epochs after `e` (R3). -/
def epochAfter (e : Epoch) (n : Nat) : Epoch := e + Fin.ofNat 1024 n

/-- An epoch restated against a count set to 0 by a MARK, where `p` is the epoch before the pulse
(R96, R101, R129). -/
def restated (p e : Epoch) : Epoch := e - p - 1

/-- Division rounded up (R2). -/
def ceilDiv (a b : Nat) : Nat := (a + b - 1) / b

/-! ## Bytes, most significant first (R171) -/

/-- The byte at an offset of a body; 0 past its end. -/
def byteAt (b : List Byte) (k : Nat) : Byte := b.getD k 0

/-- The two-byte field at an offset. -/
def wordAt (b : List Byte) (k : Nat) : BitVec 16 := byteAt b k ++ byteAt b (k + 1)

/-- The three-byte field at an offset. -/
def tripleAt (b : List Byte) (k : Nat) : BitVec 24 := byteAt b k ++ wordAt b (k + 1)

/-- The four-byte field at an offset. -/
def quadAt (b : List Byte) (k : Nat) : BitVec 32 := wordAt b k ++ wordAt b (k + 2)

/-- The eight-byte field at an offset. -/
def octAt (b : List Byte) (k : Nat) : BitVec 64 := quadAt b k ++ quadAt b (k + 4)

/-- The low byte of a number. -/
def lowByte (n : Nat) : Byte := BitVec.ofNat 8 n

/-- A number as a field of `k` bytes, most significant first. -/
def fieldBytes : Nat → Nat → List Byte
  | 0, _ => []
  | k + 1, n => fieldBytes k (n / 256) ++ [lowByte n]

/-! ## The check word (R171) -/

/-- One step of the register: the divisor is x^16 + x^12 + x^5 + 1. -/
def checkStep (r : BitVec 16) : BitVec 16 := if r.msb then (r <<< 1) ^^^ 0x1021#16 else r <<< 1

/-- The register after one byte, taken most significant bit first. -/
def checkByte (r : BitVec 16) (b : Byte) : BitVec 16 :=
  Nat.repeat checkStep 8 (r ^^^ (b ++ 0#8))

/-- The check word over a sequence of bytes: register preset to all ones, result not inverted. -/
def checkWord (bytes : List Byte) : BitVec 16 := bytes.foldl checkByte 0xFFFF#16

/-- The two bytes of a check word. -/
def checkBytes (w : BitVec 16) : List Byte := fieldBytes 2 w.toNat

/-! ## Inbound records -/

/-- The fifteen inbound kinds (R162). -/
inductive Kind where
  | config
  | realign
  | attach
  | release
  | range
  | channel
  | dlData
  | ulBuf
  | late
  | feedback
  | receipt
  | floor
  | query
  | statusReq
  | clear
  deriving DecidableEq, Repr

/-- The code of a kind (R173). -/
def Kind.code : Kind → Byte
  | .config => 0x01
  | .realign => 0x02
  | .attach => 0x03
  | .release => 0x04
  | .range => 0x05
  | .channel => 0x06
  | .dlData => 0x07
  | .ulBuf => 0x08
  | .late => 0x09
  | .feedback => 0x0A
  | .receipt => 0x0B
  | .floor => 0x0C
  | .query => 0x0D
  | .statusReq => 0x0E
  | .clear => 0x0F

/-- The body length of a kind (R173). -/
def Kind.length : Kind → Nat
  | .config => 47
  | .realign => 0
  | .attach => 8
  | .release => 1
  | .range => 3
  | .channel => 3
  | .dlData => 4
  | .ulBuf => 4
  | .late => 3
  | .feedback => 4
  | .receipt => 2
  | .floor => 1
  | .query => 1
  | .statusReq => 1
  | .clear => 4

/-- The kinds in code order. -/
def Kind.all : List Kind :=
  [.config, .realign, .attach, .release, .range, .channel, .dlData, .ulBuf, .late, .feedback, .receipt,
   .floor, .query, .statusReq, .clear]

/-- The kind a code names, if it is one of the fifteen. -/
def Kind.ofCode (c : Byte) : Option Kind := Kind.all.find? fun k => k.code == c

/-- The kind of a record. -/
def recordKind : Record → Kind
  | .config _ => .config
  | .realign => .realign
  | .attach _ _ _ _ _ => .attach
  | .release _ => .release
  | .range _ _ => .range
  | .channel _ _ _ => .channel
  | .dlData _ _ => .dlData
  | .ulBuf _ _ => .ulBuf
  | .late _ _ => .late
  | .feedback _ _ _ => .feedback
  | .receipt _ => .receipt
  | .floor _ => .floor
  | .query _ => .query
  | .statusReq _ => .statusReq
  | .clear _ => .clear

/-- A context index is one byte (R173). -/
def indexOfByte (b : Byte) : Index := Fin.ofNat 256 b.toNat

/-- An epoch field on the sector link is taken modulo 1,024 (R180). -/
def epochOfWord (w : BitVec 16) : Epoch := Fin.ofNat 1024 w.toNat

/-- The CONFIG body at its offsets (R174). -/
def readConfig (b : List Byte) : ConfigBody :=
  { counts := byteAt b 0, budget := wordAt b 1, floorShare := wordAt b 3, rampStep := wordAt b 5,
    t1 := wordAt b 7, t2 := wordAt b 9, adjacency := byteAt b 11, advanceLimit := wordAt b 12,
    tailGuard := byteAt b 14, maxShadow := byteAt b 15, window := byteAt b 16, redoMax := byteAt b 17,
    redoDistance := byteAt b 18, idleTimer := wordAt b 19, admitTimeout := byteAt b 21,
    ageLimit := wordAt b 22, edgeGrade := byteAt b 24, quietGrade := byteAt b 25, tMin := byteAt b 26,
    tMax := byteAt b 27, updateInterval := byteAt b 28, holdDown := wordAt b 29,
    maxSubscribers := wordAt b 31, overrun := byteAt b 33, enables := quadAt b 34, levels := octAt b 38,
    threshold := byteAt b 46 }

/-- The 47 bytes of a CONFIG body (R174). -/
def configBytes (c : ConfigBody) : List Byte :=
  [c.counts] ++ fieldBytes 2 c.budget.toNat ++ fieldBytes 2 c.floorShare.toNat ++
    fieldBytes 2 c.rampStep.toNat ++ fieldBytes 2 c.t1.toNat ++ fieldBytes 2 c.t2.toNat ++ [c.adjacency] ++
    fieldBytes 2 c.advanceLimit.toNat ++
    [c.tailGuard, c.maxShadow, c.window, c.redoMax, c.redoDistance] ++ fieldBytes 2 c.idleTimer.toNat ++
    [c.admitTimeout] ++ fieldBytes 2 c.ageLimit.toNat ++
    [c.edgeGrade, c.quietGrade, c.tMin, c.tMax, c.updateInterval] ++ fieldBytes 2 c.holdDown.toNat ++
    fieldBytes 2 c.maxSubscribers.toNat ++ [c.overrun] ++ fieldBytes 4 c.enables.toNat ++
    fieldBytes 8 c.levels.toNat ++ [c.threshold]

/-- The figures a body of the right length carries, before any clamp (R173). -/
def readBody (k : Kind) (b : List Byte) : Record :=
  match k with
  | .config => .config (readConfig b)
  | .realign => .realign
  | .attach =>
    .attach (indexOfByte (byteAt b 0)) (tripleAt b 1).toNat (byteAt b 4).toNat (byteAt b 5).toNat
      (wordAt b 6).toNat
  | .release => .release (indexOfByte (byteAt b 0))
  | .range => .range (indexOfByte (byteAt b 0)) (wordAt b 1).toNat
  | .channel => .channel (indexOfByte (byteAt b 0)) (byteAt b 1).toNat (byteAt b 2).toNat
  | .dlData => .dlData (indexOfByte (byteAt b 0)) (tripleAt b 1).toNat
  | .ulBuf => .ulBuf (indexOfByte (byteAt b 0)) (tripleAt b 1).toNat
  | .late => .late (indexOfByte (byteAt b 0)) (wordAt b 1).toNat
  | .feedback => .feedback (epochOfWord (wordAt b 0)) (byteAt b 2).toNat ((byteAt b 3).getLsbD 0)
  | .receipt => .receipt (epochOfWord (wordAt b 0))
  | .floor => .floor (byteAt b 0).toNat
  | .query => .query (indexOfByte (byteAt b 0))
  | .statusReq => .statusReq ((byteAt b 0).getLsbD 0)
  | .clear => .clear (quadAt b 0)

/-- The body bytes of a record (R173). -/
def bodyBytes : Record → List Byte
  | .config c => configBytes c
  | .realign => []
  | .attach i d c w r =>
    [lowByte i.val] ++ fieldBytes 3 d ++ [lowByte c, lowByte w] ++ fieldBytes 2 r
  | .release i => [lowByte i.val]
  | .range i r => [lowByte i.val] ++ fieldBytes 2 r
  | .channel i d u => [lowByte i.val, lowByte d, lowByte u]
  | .dlData i n => [lowByte i.val] ++ fieldBytes 3 n
  | .ulBuf i n => [lowByte i.val] ++ fieldBytes 3 n
  | .late i e => [lowByte i.val] ++ fieldBytes 2 e
  | .feedback e p f => fieldBytes 2 e.val ++ [lowByte p, lowByte f.toNat]
  | .receipt e => fieldBytes 2 e.val
  | .floor f => [lowByte f]
  | .query i => [lowByte i.val]
  | .statusReq z => [lowByte z.toNat]
  | .clear m => fieldBytes 4 m.toNat

/-- The start byte of a record (R171). -/
def startByte : Byte := 0xC3

/-- The byte that both senders repeat between records (R171). -/
def idleByte : Byte := 0x3C

/-- Kind, length and body: what the check word of a record covers (R171, R172). -/
def coveredBytes (kind : Byte) (body : List Byte) : List Byte :=
  [kind] ++ fieldBytes 2 body.length ++ body

/-- A whole record from its start byte to the end of its check word (R172). -/
def envelope (kind : Byte) (body : List Byte) : List Byte :=
  [startByte] ++ coveredBytes kind body ++ checkBytes (checkWord (coveredBytes kind body))

/-- The bytes of an inbound record. -/
def recordBytes (r : Record) : List Byte := envelope (recordKind r).code (bodyBytes r)

/-- Test 4 of R159: a plan index above 31 or a grade above 15. -/
def outOfRange : Record → Bool
  | .feedback _ p _ => decide (31 < p)
  | .channel _ d u => decide (15 < d) || decide (15 < u)
  | .config _ | .realign | .attach _ _ _ _ _ | .release _ | .range _ _ | .dlData _ _ | .ulBuf _ _ | .late _ _
  | .receipt _ | .floor _ | .query _ | .statusReq _ | .clear _ => false

/-- A weight taken from bits 3–0 and then clamped, 0 becoming 1 (R160, R180). -/
def clampWeight (w : Nat) : Nat := if w % 16 = 0 then 1 else w % 16

/-- The clamps and masks of reception (R160, R180).  A figure keeps no more bits than its field has. -/
def clampRecord : Record → Record
  | .attach i d c w r => .attach i (d % 2 ^ 24) (c % 4) (clampWeight w) (min r 1000)
  | .range i r => .range i (min r 1000)
  | .late i e => .late i (min e 255)
  | .floor f => .floor (min f 3)
  | .dlData i n => .dlData i (n % 2 ^ 24)
  | .ulBuf i n => .ulBuf i (n % 2 ^ 24)
  | .clear m => .clear (m &&& 0x1FFFFFFF#32)
  | .config b => .config b
  | .realign => .realign
  | .release i => .release i
  | .channel i d u => .channel i d u
  | .feedback e p f => .feedback e p f
  | .receipt e => .receipt e
  | .query i => .query i
  | .statusReq z => .statusReq z

/-- What the receiver makes of a record's bytes. -/
inductive Reception where
  /-- Well formed, with the clamps applied. -/
  | wellFormed (r : Record)
  /-- Malformed: the kind byte as received, the LINK_ERROR code, and whether the check word was correct. -/
  | malformed (kind : Option Byte) (code : Code) (checkOk : Bool)
  deriving DecidableEq, Repr

/-- Tests 2, 3 and 4 of R159, and the clamps. -/
def judgeBody (kind : Byte) (body : List Byte) : Reception :=
  match Kind.ofCode kind with
  | none => .malformed (some kind) .kind true
  | some k =>
    if body.length ≠ k.length then .malformed (some kind) .length true
    else if outOfRange (readBody k body) then .malformed (some kind) .range true
    else .wellFormed (clampRecord (readBody k body))

/-- The receiver on the bytes that follow a start byte: the record is taken at the length its length field
gives, and the tests are made in order (R159, R172).  Bytes past the check word are not part of it. -/
def receive : List Byte → Reception
  | kind :: hi :: lo :: rest =>
    let n := (hi ++ lo).toNat
    if rest.length < n + 2 then .malformed (some kind) .check false
    else if wordAt rest n ≠ checkWord (kind :: hi :: lo :: rest.take n) then .malformed (some kind) .check false
    else judgeBody kind (rest.take n)
  | kind :: _ => .malformed (some kind) .check false
  | [] => .malformed none .check false

/-- The length of the record that follows a start byte, by its length field: kind, length, body and check word.  None
while the field has not been received whole (R172). -/
def recordSpan : List Byte → Option Nat
  | _ :: hi :: lo :: _ => some ((hi ++ lo).toNat + 5)
  | _ => none

/-- The bytes after a start byte reach the end of the record's check word. -/
def recordEnds (bytes : List Byte) : Bool :=
  match recordSpan bytes with
  | some n => decide (n ≤ bytes.length)
  | none => false

/-- What follows a record on the line; nothing follows one that is not received to its end. -/
def afterRecord (bytes : List Byte) : List Byte :=
  match recordSpan bytes with
  | some n => bytes.drop n
  | none => []

/-! ## Site bus frames (R179) -/

/-- A frame of one of the two kinds. -/
inductive FrameIn where
  | announce (f : AnnounceFrame)
  | ability (f : AbilityFrame)
  deriving DecidableEq, Repr

/-- The station of a frame's second byte: bits 7–5. -/
def stationOfByte (b : Byte) : Station := Fin.ofNat 8 (b.extractLsb' 5 3).toNat

/-- The fields of an ANNOUNCE at their offsets. -/
def readAnnounce (b : List Byte) : AnnounceFrame :=
  { station := stationOfByte (byteAt b 1), opState := (byteAt b 1).extractLsb' 0 2, epoch := wordAt b 2,
    target := wordAt b 4, claim := wordAt b 6, reserved := tripleAt b 8, demand := byteAt b 11,
    modeCode := (byteAt b 12).extractLsb' 0 2, modeEdge := (byteAt b 12).getLsbD 7 }

/-- The fields of an ABILITY at their offsets. -/
def readAbility (b : List Byte) : AbilityFrame :=
  { station := stationOfByte (byteAt b 1), opState := (byteAt b 1).extractLsb' 0 2, epoch := wordAt b 2,
    c12 := (byteAt b 4).getLsbD 0, c16 := (byteAt b 4).getLsbD 1, c24 := (byteAt b 4).getLsbD 2,
    edge := (byteAt b 4).getLsbD 7 }

/-- The check word of a frame of `n` bytes is correct over the bytes before it. -/
def frameChecks (b : List Byte) (n : Nat) : Bool := wordAt b (n - 2) == checkWord (b.take (n - 2))

/-- The frame a sequence of whole bytes makes, when it passes every test of R141. -/
def readFrame (b : List Byte) (partialByte : Bool) : Option FrameIn :=
  if partialByte then none
  else if byteAt b 0 = 0x41 ∧ b.length = 15 ∧ frameChecks b 15 = true then some (.announce (readAnnounce b))
  else if byteAt b 0 = 0x42 ∧ b.length = 7 ∧ frameChecks b 7 = true then some (.ability (readAbility b))
  else none

/-- A frame's epoch field: 65,535 is the unaligned indication, any other value is taken modulo 1,024
(R179, R180). -/
def frameEpoch (w : BitVec 16) : Option Epoch := if w.toNat = Config.absentField then none else some (epochOfWord w)

/-- The common mode a frame's mode byte states; the count code 3 states none (R179, R180). -/
def frameMode (code : BitVec 2) (edge : Bool) : Option Mode :=
  match code.toNat with
  | 0 => some { bands := .s12, edge := edge }
  | 1 => some { bands := .s16, edge := edge }
  | 2 => some { bands := .s24, edge := edge }
  | _ => none

end Sys2Proof.Machine
end

