-- ==== Sys2Proof/Machine/Formats.lean ====
section
/-!
DEFINITION. The bytes of everything the part sends: the outbound record bodies (R175–R178), the site bus frames
(R179), and the CONFIG body that carries the values in force (R150, R174, R175).
-/
namespace Sys2Proof.Machine

/-! ## Codes -/

/-- The sub-band count of a common mode (R149). -/
def BandCount.bands : BandCount → Nat
  | .s12 => 12
  | .s16 => 16
  | .s24 => 24

/-- The count code of a mode byte: 0, 1, 2 for 12, 16, 24 (R178). -/
def BandCount.code : BandCount → Nat
  | .s12 => 0
  | .s16 => 1
  | .s24 => 2

/-- The number of a NOTICE code (R175). -/
def Code.num : Code → Nat
  | .none => 0
  | .notReady => 1
  | .inUse => 2
  | .full => 3
  | .notAttached => 4
  | .closing => 5
  | .done => 6
  | .dl => 7
  | .ul => 8
  | .refund => 9
  | .range => 10
  | .lateness => 11
  | .missed => 12
  | .unknown => 13
  | .premature => 14
  | .deadline => 15
  | .limit => 16
  | .check => 17
  | .kind => 18
  | .length => 19
  | .figure n => n

/-- The number of an operating state (R178). -/
def OpState.num : OpState → Nat
  | .unconfigured => 0
  | .listening => 1
  | .operating => 2
  | .holding => 3

/-- The number of a context state (R177). -/
def ContextState.num : ContextState → Nat
  | .free => 0
  | .admitting => 1
  | .active => 2
  | .dormant => 3
  | .closing => 4

/-- The number of a watch state, in the order R178 lists them: DEDUCED (assumption 52). -/
def WatchState.num : WatchState → Nat
  | .unset => 0
  | .regular => 1
  | .faulty => 2
  | .lost => 3

/-- The number of a measured period: none, 2 ms, 4 ms in the order R178 lists them: DEDUCED (assumption 52). -/
def periodNum : Option Period → Nat
  | none => 0
  | some .ms2 => 1
  | some .ms4 => 2

/-- The number of a peer state, in the order R178 lists them: DEDUCED (assumption 52). -/
def PeerState.num : PeerState → Nat
  | .absent => 0
  | .present => 1
  | .stale => 2

/-- A mode byte: bits 1–0 the count code, 3 for none; bit 7 the edge setting (R178). -/
def modeByte : Option Mode → Nat
  | none => 3
  | some m => m.bands.code + 128 * m.edge.toNat

/-- Supported counts in bits 0–2 and edge capability in bit 7 (R174, R179). -/
def abilityByte (a : Ability) : Nat :=
  a.counts.c12.toNat + 2 * a.counts.c16.toNat + 4 * a.counts.c24.toNat + 128 * a.edge.toNat

/-! ## Outbound bodies -/

/-- A grant record, 17 bytes (R176). -/
def grantBytes (g : Grant) : List Byte :=
  [lowByte g.index, lowByte g.context.val] ++ fieldBytes 3 g.ident ++
    [lowByte ((match g.direction with | .dl => 0 | .ul => 128) + g.redoNumber),
     lowByte g.firstBand, lowByte g.width, lowByte g.firstSlot, lowByte g.height, lowByte g.grade,
     lowByte (16 * g.scheme + g.repetition)] ++
    fieldBytes 2 g.capacity ++ fieldBytes 2 g.bytes ++ [lowByte g.tilePower]

/-- A PLAN body: the header and the grant records in plan index order (R175, R176). -/
def planBytes (p : Plan) : List Byte :=
  fieldBytes 2 p.target.val ++ [lowByte p.dlCount, lowByte p.ulCount] ++ fieldBytes 2 p.power ++
    fieldBytes 2 p.allowance ++ [lowByte p.effectiveFloor] ++ p.grants.flatMap grantBytes

/-- A NOTICE body, 6 bytes (R175). -/
def noticeBytes (n : Notice) : List Byte :=
  [lowByte n.event.num] ++ fieldBytes 2 n.subject ++ [lowByte n.code.num] ++ fieldBytes 2 (epochField n.epoch)

/-- A CONTEXT body, 37 bytes (R177).  The ul_barred byte is 1 for yes and 0 for no, a coding that no rule gives: DESIGN
CHOICE (assumption 51). -/
def contextBytes (i : Index) (c : Context) (redoCount : Nat) : List Byte :=
  [lowByte i.val, lowByte c.state.num] ++ fieldBytes 3 c.ident ++
    [lowByte c.attachNo.val, lowByte c.cls, lowByte c.weight, lowByte c.dlGrade, lowByte c.ulGrade] ++
    fieldBytes 3 c.dlBacklog ++ fieldBytes 3 c.ulBacklog ++ fieldBytes 3 c.avgDl ++ fieldBytes 3 c.avgUl ++
    fieldBytes 2 c.rtd ++ [lowByte c.lateMargin, lowByte c.strikes, lowByte c.ulBarred.toNat] ++
    fieldBytes 2 (epochField c.lastServedDl) ++ fieldBytes 2 (epochField c.lastServedUl) ++
    fieldBytes 2 c.idleCount ++ [lowByte c.admitCount] ++ fieldBytes 2 c.outstanding ++ [lowByte redoCount]

/-- One station's four bytes of the Peer Table summary (R178), a flag bit 1 where the flag holds: DEDUCED
(assumption 52). -/
def peerBytes (p : PeerSummary) : List Byte :=
  [lowByte (p.state.num + 16 * p.misaligned.toNat + 32 * p.incompatible.toNat + 64 * p.adjacent.toNat),
   lowByte p.silence] ++ fieldBytes 2 p.claim

/-- A STATUS body, 89 bytes (R178), the bits of LOST and cut off 1 where they hold: DEDUCED (assumption 52). -/
def statusBytes (r : StatusReply) : List Byte :=
  [lowByte r.opState.num, lowByte r.station.val, lowByte (modeByte r.mode)] ++
    fieldBytes 2 (epochField r.epoch) ++
    [lowByte (r.watch.num + 16 * periodNum r.period), lowByte (r.linkLost.toNat + 2 * r.cutOff.toNat)] ++
    fieldBytes 4 r.flags.toNat ++ r.counters.list.flatMap (fieldBytes 2) ++ [lowByte r.remainder] ++
    fieldBytes 2 r.pPrev ++ fieldBytes 2 (r.allowance.getD Config.absentField) ++
    [lowByte r.powerFloor, lowByte r.requestedFloor] ++ fieldBytes 3 r.ownSet.toNat ++
    [lowByte r.demand, lowByte r.subBands] ++ fieldBytes 3 r.heldDown.toNat ++ r.peers.flatMap peerBytes ++
    fieldBytes 2 r.ogtEntries ++ [lowByte r.redoEntries]

/-- The kind code of an outbound record (R175). -/
def outCode : OutRecord → Byte
  | .plan _ => 0x81
  | .notice _ => 0x82
  | .context _ _ _ => 0x83
  | .status _ => 0x84
  | .configEcho _ _ _ => 0x85

/-- The body bytes of an outbound record (R175). -/
def outBody : OutRecord → List Byte
  | .plan p => planBytes p
  | .notice n => noticeBytes n
  | .context i c r => contextBytes i c r
  | .status r => statusBytes r
  | .configEcho accepted body clamped =>
    [lowByte (if accepted then 0 else 1)] ++ configBytes body ++ fieldBytes 4 clamped.toNat

/-- The bytes of an outbound record as the transmitter sends them (R172). -/
def outBytes (r : OutRecord) : List Byte := envelope (outCode r) (outBody r)

/-- What the transmitter carries now: the bytes of the record being sent, and with none queued the idle byte, again and
again (R163, R171). -/
def LinkPort.onLine (l : LinkPort) : List Byte :=
  match l.queue.head? with
  | some r => outBytes r
  | none => [idleByte]

/-- The check word that ends a PLAN cut off early: that of the record, over kind, length and body, with every bit
inverted (R164, R171).  That the whole body is meant, and not the bytes sent by then: DEDUCED (assumption 49). -/
def cutCheck (p : Plan) : BitVec 16 := ~~~(checkWord (coveredBytes 0x81 (planBytes p)))

/-! ## Site bus frames -/

/-- The second byte of a frame: station in bits 7–5, operating state in bits 1–0 (R179).  R179 gives the state no
numbers; those of R178's STATUS body are sent: DEDUCED (assumption 53). -/
def frameHead (station : Station) (op : OpState) : Byte := lowByte (32 * station.val + op.num)

/-- The bytes of a frame before its check word, with the epoch field written as the attempt begins
(R133, R179). -/
def frameContents (epoch : Nat) : BusFrame → List Byte
  | .announce st op target claim reserved demand mode =>
    [0x41, frameHead st op] ++ fieldBytes 2 epoch ++ fieldBytes 2 target.val ++ fieldBytes 2 claim ++
      fieldBytes 3 reserved.toNat ++ [lowByte demand, lowByte (modeByte mode)]
  | .ability st op word =>
    [0x42, frameHead st op] ++ fieldBytes 2 epoch ++ [lowByte (abilityByte word)]

/-- The bytes of a whole frame (R179). -/
def frameBytes (epoch : Nat) (f : BusFrame) : List Byte :=
  frameContents epoch f ++ checkBytes (checkWord (frameContents epoch f))

/-! ## The values in force as a CONFIG body -/

/-- The CONFIG body of the values in force, unused bits 0 (R150, R175, R180). -/
def inForce (p : Params) (e : EventUnit) : ConfigBody :=
  { counts := lowByte (abilityByte { counts := p.counts, edge := p.edgeCapable })
    budget := BitVec.ofNat 16 p.budget
    floorShare := BitVec.ofNat 16 p.floorShare
    rampStep := BitVec.ofNat 16 p.rampStep
    t1 := BitVec.ofNat 16 p.t1
    t2 := BitVec.ofNat 16 p.t2
    adjacency := p.adjacency
    advanceLimit := BitVec.ofNat 16 p.advanceLimit
    tailGuard := lowByte p.tailGuard
    maxShadow := lowByte p.maxShadow
    window := lowByte p.window
    redoMax := lowByte p.redoMax
    redoDistance := lowByte p.redoDistance
    idleTimer := BitVec.ofNat 16 p.idleTimer
    admitTimeout := lowByte p.admitTimeout
    ageLimit := BitVec.ofNat 16 p.ageLimit
    edgeGrade := lowByte p.edgeGrade
    quietGrade := lowByte p.quietGrade
    tMin := lowByte p.tMin
    tMax := lowByte p.tMax
    updateInterval := lowByte p.updateInterval
    holdDown := BitVec.ofNat 16 p.holdDown
    maxSubscribers := BitVec.ofNat 16 p.maxSubscribers
    overrun := if p.keepPolicy then 1 else 0
    enables := e.enables.setWidth 32
    levels := e.levels.setWidth 64
    threshold := lowByte e.threshold }

end Sys2Proof.Machine
end

