-- ==== Sys2Proof/Machine/Ops.lean ====
section
/-!
DEFINITION. Shared operations on contexts, on the frame due and on the outbound queue: reads and writes of one
context, the lateness arithmetic and the derivation of ul_barred, every path to FREE, charges and refunds,
the frame that becomes due, and the cut-off of PLAN records.
-/
namespace Sys2Proof.Machine

/-! ## Time and station -/

/-- T_slot in microseconds: one eighth of the measured period, and 250 while the period is none (R37, R149). -/
def slotTime (s : State) : Nat :=
  match s.align.period with
  | some .ms4 => 500
  | some .ms2 => 250
  | none => 250

/-- The epoch number the other blocks use (R152).  While the count is unaligned no run, tag or deadline
depends on it; the value taken there, 0, is read by no rule. -/
def now (s : State) : Epoch := s.align.epoch.getD 0

/-- The part tracks plans: OPERATING or HOLDING. -/
def tracks (s : State) : Bool := s.align.opState == .operating || s.align.opState == .holding

/-! ## Contexts -/

/-- The context at an index. -/
def ctx (s : State) (i : Index) : Context := s.contexts.get i

/-- The state with one context replaced. -/
def setCtx (i : Index) (c : Context) (s : State) : State := { s with contexts := s.contexts.set i c }

/-- The values a context takes on entry to FREE: those of R6 with attach_no kept. -/
def Context.freed (c : Context) : Context := { Context.reset with attachNo := c.attachNo }

/-- A context enters FREE (R6). -/
def enterFree (i : Index) (s : State) : State := setCtx i (ctx s i).freed s

/-- A context goes to FREE and RELEASED is set with code DONE (R17, R20). -/
def releaseDone (i : Index) (s : State) : State := setEvent .released i.val .done (enterFree i s)

/-- A context is attached: ADMITTING, ACTIVE or DORMANT. -/
def ContextState.attached : ContextState → Bool
  | .admitting | .active | .dormant => true
  | .free | .closing => false

/-! ## Lateness (R37, R38) -/

/-- L = max(0, rtd + late_margin − advance_limit) (R37). -/
def lateness (advanceLimit rtd margin : Nat) : Nat := rtd + margin - advanceLimit

/-- k = ceil(L / T_slot) (R37). -/
def shadowCount (advanceLimit slot rtd margin : Nat) : Nat := ceilDiv (lateness advanceLimit rtd margin) slot

/-- k7 = ceil(max(0, L − G) / T_slot) (R37). -/
def tailShadowCount (advanceLimit guardTime slot rtd margin : Nat) : Nat :=
  ceilDiv (lateness advanceLimit rtd margin - guardTime) slot

/-- The range test of R38 holds. -/
def rangeBars (s : State) (c : Context) : Bool :=
  decide (s.config.maxShadow < shadowCount s.config.advanceLimit (slotTime s) c.rtd c.lateMargin)

/-- The lateness test of R38 holds. -/
def latenessBars (s : State) (c : Context) : Bool := decide (c.strikes = 3) && !s.config.keepPolicy

/-- Derive ul_barred of one context again; a change from no to yes sets UL_BARRED (R38). -/
def deriveBar (i : Index) (s : State) : State :=
  let c := ctx s i
  let barred := rangeBars s c || latenessBars s c
  let written := setCtx i { c with ulBarred := barred } s
  if barred && !c.ulBarred then
    setEvent .ulBarred i.val (if rangeBars s c then .range else .lateness) written
  else written

/-- Derive ul_barred of every context that is not FREE, in ascending index order (R38). -/
def deriveAllBars (s : State) : State :=
  (s.contexts.positions fun c => c.state != .free).foldl (fun t i => deriveBar i t) s

/-! ## Backlogs and outstanding -/

/-- The backlog of a context in one direction. -/
def Context.backlog (c : Context) : Direction → Nat
  | .dl => c.dlBacklog
  | .ul => c.ulBacklog

/-- The context with the backlog of one direction replaced. -/
def Context.withBacklog (c : Context) (d : Direction) (n : Nat) : Context :=
  match d with
  | .dl => { c with dlBacklog := n }
  | .ul => { c with ulBacklog := n }

/-- An adjustment of a backlog reaches a context that is neither CLOSING nor FREE (R18, R31). -/
def Context.takesAdjustment (c : Context) : Bool := c.state.attached

/-- A charge: the bytes are subtracted and a result below 0 is held as 0 (R31). -/
def charge (i : Index) (d : Direction) (n : Nat) (s : State) : State :=
  let c := ctx s i
  if c.takesAdjustment then setCtx i (c.withBacklog d (c.backlog d - n)) s else s

/-- A refund: the bytes are added; a sum above 1,048,575 is held there and DLDATA_SATURATED is set with code
REFUND (R31). -/
def refund (i : Index) (d : Direction) (n : Nat) (s : State) : State :=
  let c := ctx s i
  if c.takesAdjustment then
    let written := setCtx i (c.withBacklog d (min Config.backlogMax (c.backlog d + n))) s
    if Config.backlogMax < c.backlog d + n then setEvent .dlDataSaturated i.val .refund written else written
  else s

/-- One more OGT entry names the context (R19). -/
def addOutstanding (i : Index) (s : State) : State :=
  setCtx i { ctx s i with outstanding := (ctx s i).outstanding + 1 } s

/-- One OGT entry of the context is gone; a CLOSING context that reaches 0 goes to FREE with RELEASED code
DONE (R19, R20). -/
def dropOutstanding (i : Index) (s : State) : State :=
  let c := ctx s i
  let lowered := setCtx i { c with outstanding := c.outstanding - 1 } s
  if c.state == .closing && c.outstanding - 1 == 0 then releaseDone i lowered else lowered

/-- The OGT is emptied all at once: outstanding of every context becomes 0 and each CLOSING context goes to FREE
with RELEASED code DONE, in ascending index order (R24, R25). -/
def emptyOutstanding (s : State) : State :=
  let zeroed := { s with contexts := s.contexts.map fun c => { c with outstanding := 0 } }
  (zeroed.contexts.positions fun c => c.state == .closing).foldl (fun t i => releaseDone i t) zeroed

/-! ## The frame due (R133, R134, R138) -/

/-- The transmit side with no frame due (R132, R136).  The attempt number is 1 at once, while R136 gives it anew only
for the next frame due: DESIGN CHOICE (assumption 42). -/
def BusPort.idle (b : BusPort) : BusPort :=
  { b with due := none, access := .empty, attempt := 1, units := 0, keepsUnits := false, newer := none,
           noRetry := false }

/-- The transmit side with a fresh frame due at attempt number 1 (R134). -/
def BusPort.waitWith (b : BusPort) (f : BusFrame) : BusPort :=
  { b with due := some f, access := .waiting, attempt := 1, units := 0, keepsUnits := false, newer := none,
           noRetry := false }

/-- A frame becomes due: it replaces an unsent one, it follows the attempt on the line, or in the cut-off state it
is discarded at once and counted as unsent (R134, R138). -/
def frameDue (f : BusFrame) (s : State) : State :=
  if s.bus.cutOff then advance .unsentFrames 1 s
  else
    match s.bus.access with
    | .sending => { s with bus := { s.bus with newer := some f } }
    | .empty | .waiting | .deferring => { s with bus := s.bus.waitWith f }

/-- The ANNOUNCE that carries a target and a claim, with the set and the demand as held at this moment
(R116, R117, R122, R133). -/
def announcement (s : State) (target : Epoch) (claim : Nat) : BusFrame :=
  .announce s.align.station s.align.opState target claim s.edge.ownSet s.edge.demand s.align.mode

/-- The ABILITY frame of a pulse taken in LISTENING (R133). -/
def abilityFrame (s : State) : BusFrame :=
  .ability s.align.station s.align.opState { counts := s.config.counts, edge := s.config.edgeCapable }

/-! ## PLAN cut-off (R164) -/

/-- The record is a PLAN. -/
def OutRecord.isPlan : OutRecord → Bool
  | .plan _ => true
  | .notice _ | .context _ _ _ | .status _ | .configEcho _ _ _ => false

/-- At entry to HOLDING and at REALIGN: a PLAN being sent is ended by its inverted check word, every PLAN that
waits is removed unsent, and the other records keep their order (R164). -/
def cutPlans (s : State) : State :=
  { s with
    link :=
      { s.link with
        queue := s.link.queue.filter fun r => !r.isPlan
        lastOut :=
          match s.link.queue.head? with
          | some (.plan p) => some (.cut p (cutCheck p))
          | _ => s.link.lastOut } }

end Sys2Proof.Machine
end

