-- ==== Sys2Proof/Machine/Tracking.lean ====
section
/-!
DEFINITION. The Redo List, the Outstanding Grant Table and the Batch Ring as the blocks act on them: insertion in
order, failures and returns, removals, voids, the abort of a run, entry to HOLDING and the emptyings
(chapter 5, R63, R64, R103, R104, R156).
-/
namespace Sys2Proof.Machine

/-! ## Redo List -/

/-- Creation order `a` is earlier than `b`: by epoch, then by serial (R98, R100). -/
def createdBefore (a b : CreationOrder) : Bool :=
  earlier a.epoch b.epoch || (a.epoch == b.epoch && decide (a.serial < b.serial))

/-- Entry `a` stands before entry `b`: an earlier deadline, or an equal one and an earlier creation (R100). -/
def redoBefore (a b : RedoEntry) : Bool :=
  earlier a.deadline b.deadline || (a.deadline == b.deadline && createdBefore a.order b.order)

/-- Insertion in deadline order, equal deadlines in creation order (R100). -/
def insertRedo (e : RedoEntry) : List RedoEntry → List RedoEntry
  | [] => [e]
  | x :: xs => if redoBefore e x then e :: x :: xs else x :: insertRedo e xs

/-- The state with the Redo List replaced. -/
def setRedo (l : List RedoEntry) (s : State) : State := { s with tracking := { s.tracking with redo := l } }

/-- An insertion; bringing the free count from 5 to 4 sets REDO_NEAR_FULL with the current epoch (R100). -/
def addRedo (e : RedoEntry) (s : State) : State :=
  let added := setRedo (insertRedo e s.tracking.redo) s
  if Config.redoDepth - added.tracking.redo.length = Config.redoNearFull then
    setEvent .redoNearFull (epochField s.align.epoch) .none added
  else added

/-- The list holds 48 entries (R91, R95). -/
def redoFull (s : State) : Bool := decide (Config.redoDepth ≤ s.tracking.redo.length)

/-- Entries that name a context: the redo_count of a CONTEXT reply (R26, R99). -/
def redoCount (s : State) (i : Index) : Nat := (s.tracking.redo.filter fun e => e.context == i).length

/-- A failed or returned grant that the list does not take: an event, one redo drop, its bytes lost
(R91, R95). -/
def dropGrant (k : EventKind) (code : Code) (i : Index) (bytes : Nat) (s : State) : State :=
  loseBytes bytes (advance .redoDrops 1 (setEvent k i.val code s))

/-- A failure of a COMMITTED grant handed to the Redo List, decided by its four checks in order (R95, R18). -/
def failGrant (g : OgtEntry) (s : State) : State :=
  if (ctx s g.context).state = .closing then loseBytes g.bytes s
  else if redoFull s then dropGrant .redoOverflow .none g.context g.bytes s
  else if s.config.redoMax ≤ g.redoNumber then dropGrant .redoDrop .limit g.context g.bytes s
  else
    let e : RedoEntry :=
      { context := g.context, direction := g.direction, width := g.width, height := g.height,
        grade := g.grade, bytes := g.bytes, redoNumber := g.redoNumber + 1, origin := g.tag,
        deadline := epochAfter (now s) s.config.redoDistance,
        order := { epoch := now s, serial := s.tracking.serial } }
    addRedo e { s with tracking := { s.tracking with serial := min 65535 (s.tracking.serial + 1) } }

/-- A redo grant of a void batch handed back to the Redo List, decided by its four checks in order; `n` is the
epoch the deadline is compared with (R91, R103). -/
def returnGrant (n : Epoch) (g : OgtEntry) (o : RedoOrigin) (s : State) : State :=
  if (ctx s g.context).state = .closing then loseBytes g.bytes s
  else if earlier o.deadline n then dropGrant .redoDrop .deadline g.context g.bytes s
  else if redoFull s then dropGrant .redoOverflow .none g.context g.bytes s
  else
    addRedo
      { context := g.context, direction := g.direction, width := g.width, height := g.height,
        grade := g.grade, bytes := g.bytes, redoNumber := g.redoNumber, origin := o.tag,
        deadline := o.deadline, order := o.order } s

/-- One entry whose deadline has passed leaves with REDO_DROP code DEADLINE (R101). -/
def dropExpired (s : State) (e : RedoEntry) : State := dropGrant .redoDrop .deadline e.context e.bytes s

/-- Every entry whose deadline is earlier than `n` is removed, in list order (R101). -/
def dropDeadlines (n : Epoch) (s : State) : State :=
  (s.tracking.redo.filter fun e => earlier e.deadline n).foldl dropExpired
    (setRedo (s.tracking.redo.filter fun e => !earlier e.deadline n) s)

/-- Every entry of a context is removed and its bytes are counted as lost, without event (R17). -/
def releaseRedo (i : Index) (s : State) : State :=
  loseBytes (((s.tracking.redo.filter fun e => e.context == i).map RedoEntry.bytes).sum)
    (setRedo (s.tracking.redo.filter fun e => e.context != i) s)

/-! ## Outstanding Grant Table -/

/-- The state with the OGT replaced. -/
def setOgt (l : List OgtEntry) (s : State) : State := { s with tracking := { s.tracking with ogt := l } }

/-- The entry with a tag (R94). -/
def findGrant (s : State) (t : Tag) : Option OgtEntry := s.tracking.ogt.find? fun g => g.tag == t

/-- The entry with a tag leaves the OGT. -/
def removeGrant (t : Tag) (s : State) : State := setOgt (s.tracking.ogt.filter fun g => g.tag != t) s

/-- One COMMITTED grant fails: the entry leaves, the Redo List decides, and outstanding falls after that
(R94, R95, R96). -/
def failEntry (s : State) (g : OgtEntry) : State :=
  dropOutstanding g.context (failGrant g (removeGrant g.tag s))

/-- Every COMMITTED entry whose feedback deadline is earlier than `n` expires as a silent failure, in ascending
tag order (R96). -/
def expireGrants (n : Epoch) (s : State) : State :=
  (s.tracking.ogt.filter fun g => g.committed && earlier g.feedbackDeadline n).foldl failEntry s

/-! ## Batch Ring -/

/-- The position of a target epoch in the ring (R86). -/
def ringIndex (e : Epoch) : Fin 16 := Fin.ofNat 16 e.val

/-- The batch record a target epoch maps to. -/
def batchOf (s : State) (e : Epoch) : BatchRecord := s.tracking.ring.get (ringIndex e)

/-- The record of a target epoch is written (R86). -/
def setBatch (e : Epoch) (st : BatchStatus) (s : State) : State :=
  { s with
    tracking := { s.tracking with ring := s.tracking.ring.set (ringIndex e) { target := some e, status := st } } }

/-- The record of `e` holds target `e` with a status. -/
def batchIs (s : State) (e : Epoch) (st : BatchStatus) : Bool :=
  (batchOf s e).target == some e && (batchOf s e).status == st

/-- One grant of a void batch: the entry leaves; new data is refunded, a redo grant is returned; outstanding
falls after that (R90). -/
def voidEntry (n : Epoch) (s : State) (g : OgtEntry) : State :=
  let removed := removeGrant g.tag s
  let handed :=
    match g.origin with
    | some o => returnGrant n g o removed
    | none => refund g.context g.direction g.bytes removed
  dropOutstanding g.context handed

/-- Batch `e` is void: its entries in ascending plan index, its status, BATCH_VOID and the counter (R90).  `n` is
the epoch that returned deadlines are compared with. -/
def voidBatch (n e : Epoch) (s : State) : State :=
  let emptied := (s.tracking.ogt.filter fun g => g.tag.epoch == e).foldl (voidEntry n) s
  advance .batchesVoided 1 (setEvent .batchVoid e.val .none (setBatch e .void emptied))

/-- The void at the target pulse: only a record that holds target `n` with status SENT (R90). -/
def voidAtTarget (n : Epoch) (s : State) : State := if batchIs s n .sent then voidBatch n n s else s

/-- Insertion of a target epoch in ascending order (R3). -/
def insertEpoch (e : Epoch) : List Epoch → List Epoch
  | [] => [e]
  | x :: xs => if earlier e x then e :: x :: xs else x :: insertEpoch e xs

/-- The targets of the records with status SENT, in ascending order (R103). -/
def sentTargets (s : State) : List Epoch :=
  ((s.tracking.ring.list.filter fun r => r.status == .sent).filterMap BatchRecord.target).foldr insertEpoch []

/-- Every batch still SENT is void; returned deadlines are compared with the current epoch (R103). -/
def voidAllSent (s : State) : State := (sentTargets s).foldl (fun t e => voidBatch (now s) e t) s

/-! ## Emptying (R104, R105) -/

/-- The OGT, the Batch Ring and the Redo List are emptied: no refund, no failure, no event for an entry; the Redo
List's bytes are counted as lost; outstanding becomes 0 and CLOSING contexts are freed (R24, R25, R104).  The bytes are
counted before the RELEASED notices, an order R104 leaves open: DESIGN CHOICE (assumption 35). -/
def emptyTracking (s : State) : State :=
  let emptied :=
    { s with
      tracking := { s.tracking with ring := Table.fill 16 BatchRecord.empty, ogt := [], redo := [] } }
  emptyOutstanding (loseBytes ((s.tracking.redo.map RedoEntry.bytes).sum) emptied)

/-- The feedback deadlines and the redo epochs are restated, where `p` is the epoch before the pulse
(R96, R101). -/
def restateTracking (p : Epoch) (s : State) : State :=
  { s with
    tracking :=
      { s.tracking with
        ogt := s.tracking.ogt.map fun g => { g with feedbackDeadline := restated p g.feedbackDeadline }
        redo :=
          s.tracking.redo.map fun e =>
            { e with
              deadline := restated p e.deadline
              order := { e.order with epoch := restated p e.order.epoch } } } }

/-! ## The end of a run (R63, R64) -/

/-- The carry list set to source none and an empty set (R61). -/
def emptyCarry (s : State) : State :=
  { s with engine := { s.engine with carrySource := none, carryTiles := [] } }

/-- The state with P_prev replaced. -/
def setPrev (n : Nat) (s : State) : State := { s with power := { s.power with pPrev := n } }

/-- The run in flight, if any, is discarded. -/
def discardRun (s : State) : State := { s with engine := { s.engine with run := none } }

/-- A run for `target` is aborted: MISSED in the Batch Ring, P_prev 0, PLAN_MISSED and the counter; an abort by a
pulse also makes the zero-claim ANNOUNCE due (R63, R64, R117).  In the cut-off state that frame is counted as unsent
(R138) before PLAN_MISSED is set, an order R63, R117 and R138 leave open: DESIGN CHOICE (assumption 47).  PLAN_MISSED
comes before its own counter: DESIGN CHOICE (assumption 38). -/
def abortTarget (announce : Bool) (target : Epoch) (s : State) : State :=
  let reported := setPrev 0 (setBatch target .missed (discardRun s))
  let framed := if announce then frameDue (announcement reported target 0) reported else reported
  advance .plansMissed 1 (setEvent .planMissed target.val .none framed)

/-- A run still RUNNING is aborted; an IDLE engine is left alone (R63). -/
def abortRun (announce : Bool) (s : State) : State :=
  match s.engine.run with
  | some r => abortTarget announce r.target s
  | none => s

/-! ## Entry to HOLDING (R156) -/

/-- The target of the ANNOUNCE of R118: that of the run aborted by the entry, and otherwise the epoch two after the
current one. -/
def holdingTarget (s : State) : Epoch :=
  match s.engine.run with
  | some r => r.target
  | none => epochAfter (now s) 2

/-- The part enters HOLDING from OPERATING (R156).  The abort's PLAN_MISSED comes before the voids' BATCH_VOIDs and what
they free, an order R64, R103 and R156 leave open: DESIGN CHOICE (assumption 36).  The PLANs leave the queue after all
these NOTICEs: DESIGN CHOICE (assumption 37).  In the cut-off state the HOLDING ANNOUNCE is counted as unsent (R138)
after them too, an order R64, R118, R138 and R156 leave open: DESIGN CHOICE (assumption 47). -/
def enterHolding (s : State) : State :=
  let voided := voidAllSent (abortRun false s)
  let cleared := emptyCarry { setPrev 0 voided with edge := Edge.reset }
  let held := { cleared with align := { cleared.align with opState := .holding } }
  cutPlans (frameDue (announcement held (holdingTarget s) 0) held)

/-- EPOCH_FAULT, EPOCH_LOSS or LINK_LOSS moves an OPERATING part to HOLDING and changes no state otherwise
(R153, R156, R165). -/
def holdIfOperating (s : State) : State := if s.align.opState == .operating then enterHolding s else s

end Sys2Proof.Machine
end

