-- ==== Sys2Proof/Machine/Power.lean ====
section
/-!
DEFINITION. The Power Allowance Unit's computation: the claim sum, the allowance, the power floor and SHORTAGE
(chapter 6).
-/
namespace Sys2Proof.Machine

/-- The claim of a peer record that the sum counts: ABSENT counts 0 (R110). -/
def Peer.countedClaim (p : Peer) : Nat := if p.state == .absent then 0 else p.claim

/-- ΣC over the records of the Peer Table (R110). -/
def claimSum (t : PeerTable) : Nat := (t.records.list.map Peer.countedClaim).sum

/-- The four steps of R112. -/
def allowanceOf (p : Params) (pPrev claims : Nat) : Nat :=
  min (max (min (p.budget - claims) (pPrev + p.rampStep)) p.floorShare) p.budget

/-- The power floor the thresholds derive from an allowance (R114). -/
def powerFloorOf (p : Params) (allowance : Nat) : Nat :=
  if p.t1 ≤ allowance then 0 else if p.t2 ≤ allowance then 1 else 2

/-- The PAU computes the allowance and derives the power floor for the run of a target; a floor that rises from 0 sets
SHORTAGE with the target as subject and the floor as code (R109, R114, R115). -/
def computeAllowance (target : Epoch) (s : State) : State :=
  let allowance := allowanceOf s.config s.power.pPrev (claimSum s.peers)
  let floor := powerFloorOf s.config allowance
  let held := { s with power := { s.power with allowance := some allowance, powerFloor := floor } }
  if s.power.powerFloor = 0 ∧ 0 < floor then setEvent .shortage target.val (.figure floor) held else held

end Sys2Proof.Machine
end

