-- ==== Sys2Proof/Machine/Edge.lean ====
section
/-!
DEFINITION. The Edge Reservation Unit: the blocked set, the three steps of an update event and the hold-down list
(chapter 7).
-/
namespace Sys2Proof.Machine

/-- The common mode has edge coordination on (R121). -/
def edgeOn (s : State) : Bool :=
  match s.align.mode with
  | some m => m.edge
  | none => false

/-- The sub-band count S of the common mode; 0 while there is none. -/
def bandsOf (s : State) : Nat :=
  match s.align.mode with
  | some m => m.bands.bands
  | none => 0

/-- The positions below S. -/
def bandMask (n : Nat) : SubBands := BitVec.ofNat 24 (2 ^ n - 1)

/-- The three conditions under which a peer's set enters the blocked set (R123). -/
def Peer.blocks (p : Peer) : Bool := p.adjacent && p.state != .absent && !p.incompatible

/-- The blocked set derived from the Peer Table at this moment (R121, R123). -/
def blockedSet (s : State) : SubBands :=
  if edgeOn s then
    ((s.peers.records.list.filter Peer.blocks).foldl (fun u p => u ||| p.reserved) 0#24) &&& bandMask (bandsOf s)
  else 0#24

/-- The own reservation set as a snapshot takes it: empty with edge coordination off (R121, R124). -/
def ownSetForRun (s : State) : SubBands := if edgeOn s then s.edge.ownSet else 0#24

/-- The members of a set in ascending order. -/
def members (u : SubBands) : List Nat := (List.range 24).filter fun b => u.getLsbD b

/-- A set with one sub-band removed. -/
def without (u : SubBands) (b : Nat) : SubBands := u &&& ~~~(1#24 <<< b)

/-- A set with one sub-band added. -/
def withBand (u : SubBands) (b : Nat) : SubBands := u ||| (1#24 <<< b)

/-- Sub-band `b` is yielded to station `j`: the peer counts and holds it, and its demand is larger, or equal with a
smaller station number (R126). -/
def yieldsTo (s : State) (b : Nat) (j : Station) : Bool :=
  let p := s.peers.records.get j
  p.blocks && p.reserved.getLsbD b &&
    (decide (s.edge.demand < p.demand) ||
      (decide (s.edge.demand = p.demand) && decide (j.val < s.align.station.val)))

/-- The sub-bands of the own set that the yield step gives up, in ascending order (R126). -/
def yielded (s : State) : List Nat :=
  (members s.edge.ownSet).filter fun b => (List.finRange 8).any fun j => yieldsTo s b j

/-- The yield step: each yielded sub-band leaves the own set and is held down until H epochs on (R126). -/
def yieldStep (s : State) : Edge :=
  { s.edge with
    ownSet := (yielded s).foldl without s.edge.ownSet
    holdDown :=
      s.edge.holdDown ++ (yielded s).map fun b => { band := b, expiry := epochAfter (now s) s.config.holdDown } }

/-- The target size t (R127). -/
def targetSize (p : Params) (subBands : Nat) : Nat := min p.tMax (max p.tMin (subBands + 1))

/-- The lowest sub-band below S that is not in the own set, not blocked and not held down (R128). -/
def bandToAdd (bands : Nat) (blocked : SubBands) (e : Edge) : Option Nat :=
  (List.range bands).find? fun b =>
    !e.ownSet.getLsbD b && !blocked.getLsbD b && !e.holdDown.any fun h => h.band == b

/-- The adjust step towards a target size, with the blocked set derived for the update (R128). -/
def adjustStep (bands target : Nat) (blocked : SubBands) (e : Edge) : Edge :=
  let held := members e.ownSet
  if held.length < target then
    match bandToAdd bands blocked e with
    | some b => { e with ownSet := withBand e.ownSet b }
    | none => e
  else if target < held.length then
    match held.getLast? with
    | some b => { e with ownSet := without e.ownSet b }
    | none => e
  else e

/-- The update event: yield, target and adjust, with one blocked set for all three (R125).  The demand and the sub-band
count are those held, as R122, R126 and R127 say, also at the first update after a return to OPERATING, where R131 says
"t_min or 1" and demand 0: DEDUCED (assumption 39). -/
def updateEdge (s : State) : State :=
  { s with
    edge :=
      adjustStep (bandsOf s) (targetSize s.config s.edge.subBands) (blockedSet s) (yieldStep s) }

/-- Every hold-down entry whose expiry epoch equals `n` is removed (R129). -/
def expireHoldDown (n : Epoch) (s : State) : State :=
  { s with edge := { s.edge with holdDown := s.edge.holdDown.filter fun h => h.expiry != n } }

/-- At a MARK in OPERATING: the counter is 0, each hold-down entry keeps the pulses it had left, and entries whose
new expiry is 0 leave (R125, R129).  `p` is the epoch before the pulse. -/
def restateEdge (p : Epoch) (s : State) : State :=
  expireHoldDown 0
    { s with
      edge :=
        { s.edge with
          counter := 0
          holdDown := s.edge.holdDown.map fun h => { h with expiry := restated p h.expiry } } }

end Sys2Proof.Machine
end

