-- ==== Sys2Proof/Machine/Ranking.lean ====
section
/-!
DEFINITION. The grade table, the snapshot of a run and the ranked orders: candidates, ageing, the metric and the
order of redo entries and new data (R33, R34, R42–R54, R60, R61).
-/
namespace Sys2Proof.Machine

/-! ## The grade table (R33) -/

/-- One row of the grade table. -/
structure GradeRow where
  scheme : Nat
  repetition : Nat
  /-- Bytes per tile. -/
  yield : Nat
  /-- Downlink power points per tile. -/
  cost : Nat
  /-- Sub-bands of an uplink grant. -/
  ulWidth : Nat
  deriving DecidableEq, Repr

/-- The row of a grade (R33).  A grade of 0 has no row and is never looked up. -/
def gradeRow : Nat → GradeRow
  | 1 => ⟨1, 4, 2, 3, 1⟩
  | 2 => ⟨1, 2, 4, 3, 1⟩
  | 3 => ⟨1, 1, 8, 3, 1⟩
  | 4 => ⟨2, 1, 12, 2, 2⟩
  | 5 => ⟨2, 1, 16, 2, 2⟩
  | 6 => ⟨3, 1, 20, 2, 2⟩
  | 7 => ⟨3, 1, 24, 2, 2⟩
  | 8 => ⟨3, 1, 28, 2, 2⟩
  | 9 => ⟨4, 1, 34, 1, 4⟩
  | 10 => ⟨4, 1, 40, 1, 4⟩
  | 11 => ⟨4, 1, 46, 1, 4⟩
  | 12 => ⟨5, 1, 52, 1, 4⟩
  | 13 => ⟨5, 1, 58, 1, 4⟩
  | 14 => ⟨5, 1, 64, 1, 4⟩
  | 15 => ⟨6, 1, 72, 1, 4⟩
  | _ => ⟨0, 0, 0, 0, 0⟩

/-- The edge test: a grade from 1 to E (R34). -/
def isEdgeGrade (edgeGrade grade : Nat) : Bool := decide (1 ≤ grade) && decide (grade ≤ edgeGrade)

/-! ## The snapshot (R60) -/

/-- What the snapshot holds of one context. -/
def snapContext (i : Index) (c : Context) : SnapContext :=
  { index := i, state := c.state, attachNo := c.attachNo, ident := c.ident, cls := c.cls,
    weight := c.weight, dlGrade := c.dlGrade, ulGrade := c.ulGrade, dlBacklog := c.dlBacklog,
    ulBacklog := c.ulBacklog, avgDl := c.avgDl, avgUl := c.avgUl, lastServedDl := c.lastServedDl,
    lastServedUl := c.lastServedUl, rtd := c.rtd, lateMargin := c.lateMargin, ulBarred := c.ulBarred }

/-- The redo entries a run that starts at the pulse beginning `n` takes: deadline not earlier than `n` (R52). -/
def eligibleRedo (n : Epoch) (l : List RedoEntry) : List RedoEntry := l.filter fun e => !earlier e.deadline n

/-- The carry set a run for `target` takes: the list's if its source is the epoch before, else none (R61). -/
def carryFor (e : Engine) (target : Epoch) : List (Nat × Nat) :=
  if e.carrySource = some (target - 1) then e.carryTiles else []

/-- The snapshot of the run for `target`, taken as one act (R60).  It takes the own set and the Peer Table as they stand
(R123), so where the Peer Table changes between the snapshot and the update of one pulse, whichever comes first, a
sub-band that the update yields can be open to the run, although R124 says that no grant of it covers one: DEDUCED
(assumption 48). -/
def takeSnapshot (target : Epoch) (bands : BandCount) (s : State) : Snapshot :=
  { contexts := (s.contexts.positions fun c => c.state != .free).map fun i => snapContext i (ctx s i)
    redo := eligibleRedo (now s) s.tracking.redo
    allowance := s.power.allowance.getD 0
    powerFloor := s.power.powerFloor
    requestedFloor := s.engine.requestedFloor
    carry := carryFor s.engine target
    ownSet := ownSetForRun s
    blockedSet := blockedSet s
    epoch := now s
    bands := bands
    slotTime := slotTime s
    edgeGrade := s.config.edgeGrade
    quietGrade := s.config.quietGrade
    ageLimit := s.config.ageLimit
    advanceLimit := s.config.advanceLimit
    tailGuard := s.config.tailGuard
    maxShadow := s.config.maxShadow }

/-- The run's effective floor: the larger of the power floor and the requested floor (R45). -/
def Snapshot.effectiveFloor (sn : Snapshot) : Nat := max sn.powerFloor sn.requestedFloor

/-! ## Figures of a direction -/

/-- The snapshot's grade in a direction. -/
def SnapContext.grade (c : SnapContext) : Direction → Nat
  | .dl => c.dlGrade
  | .ul => c.ulGrade

/-- The snapshot's backlog in a direction. -/
def SnapContext.backlog (c : SnapContext) : Direction → Nat
  | .dl => c.dlBacklog
  | .ul => c.ulBacklog

/-- The snapshot's average in a direction. -/
def SnapContext.average (c : SnapContext) : Direction → Nat
  | .dl => c.avgDl
  | .ul => c.avgUl

/-- The snapshot's last_served in a direction. -/
def SnapContext.lastServed (c : SnapContext) : Direction → Option Epoch
  | .dl => c.lastServedDl
  | .ul => c.lastServedUl

/-- The uplink bar keeps a context off a direction's list (R39, R42). -/
def SnapContext.barredIn (c : SnapContext) : Direction → Bool
  | .dl => false
  | .ul => c.ulBarred

/-! ## Candidates, ageing and the metric -/

/-- Every condition of R42 holds for a context in a direction. -/
def isCandidate (floor : Nat) (d : Direction) (c : SnapContext) : Bool :=
  c.state == .active && decide (1 ≤ c.grade d) && decide (c.grade d ≤ 15) && decide (0 < c.backlog d) &&
    decide (floor < c.cls) && !c.barredIn d

/-- The candidate is aged: S_age is not 0, last_served is present and its plain distance is S_age or more (R47). -/
def isAged (ageLimit : Nat) (target : Epoch) (served : Option Epoch) : Bool :=
  match served with
  | some e => decide (ageLimit ≠ 0) && decide (ageLimit ≤ (target - e).val)
  | none => false

/-- The metric M (R49). -/
def metric (weight yield average : Nat) : Nat :=
  weight * yield * Config.metricScale / (average + Config.metricOffset)

/-- The candidate entry of a context in a direction (R43, R48, R49). -/
def candidateOf (sn : Snapshot) (target : Epoch) (d : Direction) (c : SnapContext) : Candidate :=
  { context := c.index
    cls := c.cls
    effectiveClass := if isAged sn.ageLimit target (c.lastServed d) then 3 else c.cls
    metric := metric c.weight (gradeRow (c.grade d)).yield (c.average d)
    grade := c.grade d
    backlog := c.backlog d
    rtd := c.rtd
    lateMargin := c.lateMargin }

/-- Candidate `a` is taken before `b`: effective class, then metric, then index (R51). -/
def rankedBefore (a b : Candidate) : Bool :=
  decide (b.effectiveClass < a.effectiveClass) ||
    (decide (a.effectiveClass = b.effectiveClass) &&
      (decide (b.metric < a.metric) ||
        (decide (a.metric = b.metric) && decide (a.context.val < b.context.val))))

/-- Insertion into a ranked list. -/
def insertRanked (c : Candidate) : List Candidate → List Candidate
  | [] => [c]
  | x :: xs => if rankedBefore c x then c :: x :: xs else x :: insertRanked c xs

/-- The new-data candidates of a direction in the order of R51. -/
def rankedCandidates (sn : Snapshot) (target : Epoch) (d : Direction) : List Candidate :=
  ((sn.contexts.filter (isCandidate sn.effectiveFloor d)).map (candidateOf sn target d)).foldr insertRanked []

/-- The order of a direction: its redo entries in list order, then its ranked candidates (R52, R53). -/
def orderOf (sn : Snapshot) (target : Epoch) (d : Direction) : List OrderEntry :=
  ((sn.redo.filter fun e => e.direction == d).map OrderEntry.redo) ++
    (rankedCandidates sn target d).map OrderEntry.fresh

end Sys2Proof.Machine
end

