-- ==== Sys2Proof/Machine/Placement.lean ====
section
/-!
DEFINITION. The working grids and the placement of both directions: ranges and their steps, narrowing, the power
test, uplink positions with shadow and spill tiles, and redo entries (R66–R78).
-/
namespace Sys2Proof.Machine

/-! ## Working grids (R66) -/

/-- A grid of `n` sub-bands by 8 slots with every tile FREE. -/
def freeGrid (n : Nat) : Grid := List.replicate n (List.replicate Config.slots .free)

/-- The tile at a sub-band and slot; a place outside the grid is not FREE. -/
def tileAt (g : Grid) (band slot : Nat) : Tile := (g.getD band []).getD slot .taken

/-- Every tile of a rectangle is FREE. -/
def rectFree (g : Grid) (band width slot height : Nat) : Bool :=
  (List.range width).all fun i => (List.range height).all fun j => tileAt g (band + i) (slot + j) == .free

/-- A row of slots with `height` slots from `slot` set. -/
def paintSlots (row : List Tile) (slot height : Nat) (t : Tile) : List Tile :=
  (List.range height).foldl (fun r j => r.set (slot + j) t) row

/-- A grid with every tile of a rectangle set. -/
def paint (g : Grid) (band width slot height : Nat) (t : Tile) : Grid :=
  (List.range width).foldl (fun h i => h.set (band + i) (paintSlots (h.getD (band + i) []) slot height t)) g

/-- The uplink grid at run start: FREE but for the carry set's CARRIED tiles (R66). -/
def carriedGrid (n : Nat) (carry : List (Nat × Nat)) : Grid :=
  carry.foldl (fun g t => paint g t.1 1 t.2 1 .carried) (freeGrid n)

/-! ## Placed grants -/

/-- A placed grant (R72, R76). -/
structure Placed where
  context : Index
  direction : Direction
  firstBand : Nat
  width : Nat
  firstSlot : Nat
  height : Nat
  grade : Nat
  capacity : Nat
  bytes : Nat
  tilePower : Nat
  /-- The redo entry it was placed from; none for new data. -/
  redo : Option RedoEntry
  /-- A downlink grant whose grade is from 1 to E. -/
  edge : Bool
  /-- Spill tiles as sub-band and slot of the following epoch. -/
  spill : List (Nat × Nat)
  deriving DecidableEq, Repr

/-- The downlink power of a placed grant (R71). -/
def Placed.power (p : Placed) : Nat := p.width * p.height * p.tilePower

/-- A direction's placement as it proceeds. -/
structure Progress where
  grid : Grid
  remaining : Nat
  /-- In the order they were placed. -/
  placed : List Placed
  /-- New-data candidates reached and not placed. -/
  unplaced : Nat
  deriving DecidableEq, Repr

/-! ## Downlink (R68–R71, R77) -/

/-- Every sub-band of a range is in a set. -/
def rangeInside (u : SubBands) (first width : Nat) : Bool := (List.range width).all fun i => u.getLsbD (first + i)

/-- Some sub-band of a range is in a set. -/
def rangeTouches (u : SubBands) (first width : Nat) : Bool := (List.range width).any fun i => u.getLsbD (first + i)

/-- The first sub-bands of the ranges of a width, ascending (R69). -/
def firstBands (bands width : Nat) : List Nat := List.range (bands + 1 - width)

/-- The ranges of a width in the order their steps try them (R69). -/
def rangesTried (sn : Snapshot) (grade width : Nat) : List Nat :=
  let up := firstBands sn.bands.bands width
  let down := up.reverse
  let reserved := fun f => rangeTouches sn.ownSet f width
  let blocked := fun f => rangeTouches sn.blockedSet f width
  if isEdgeGrade sn.edgeGrade grade then
    (up.filter fun f => rangeInside sn.ownSet f width && !blocked f) ++ (up.filter fun f => !blocked f)
  else
    (down.filter fun f => !reserved f && !blocked f) ++
      (if sn.quietGrade ≤ grade then down.filter fun f => !reserved f else []) ++
      (down.filter fun f => !blocked f)

/-- The power of a downlink grant of a width at a grade (R70, R71). -/
def dlPower (grade width : Nat) : Nat := Config.slots * width * (gradeRow grade).cost

/-- A range qualifies: all its tiles are FREE and its power does not exceed the remaining allowance (R70). -/
def rangeQualifies (pr : Progress) (grade width first : Nat) : Bool :=
  rectFree pr.grid first width 0 Config.slots && decide (dlPower grade width ≤ pr.remaining)

/-- The first qualifying range at one width (R69, R70). -/
def findRange (sn : Snapshot) (pr : Progress) (grade width : Nat) : Option Nat :=
  (rangesTried sn grade width).find? (rangeQualifies pr grade width)

/-- The first qualifying range from a width downward, with the width it is found at (R70). -/
def narrowRange (sn : Snapshot) (pr : Progress) (grade : Nat) : Nat → Option (Nat × Nat)
  | 0 => none
  | w + 1 =>
    match findRange sn pr grade (w + 1) with
    | some f => some (f, w + 1)
    | none => narrowRange sn pr grade w

/-- The starting width of a downlink candidate: ceil(n / 8) for n = ceil(x / y), at most 48 tiles (R68). -/
def dlStartWidth (backlog yield : Nat) : Nat := ceilDiv (min Config.tilesMax (ceilDiv backlog yield)) Config.slots

/-- A downlink grant takes its range and its power (R70, R71, R72). -/
def takeRange (sn : Snapshot) (pr : Progress) (c : Index) (grade width first bytes : Nat)
    (redo : Option RedoEntry) : Progress :=
  { pr with
    grid := paint pr.grid first width 0 Config.slots .taken
    remaining := pr.remaining - dlPower grade width
    placed :=
      pr.placed ++
        [{ context := c, direction := .dl, firstBand := first, width := width, firstSlot := 0,
           height := Config.slots, grade := grade, capacity := Config.slots * width * (gradeRow grade).yield,
           bytes := bytes, tilePower := (gradeRow grade).cost, redo := redo,
           edge := isEdgeGrade sn.edgeGrade grade, spill := [] }] }

/-- One downlink entry is placed or passed over (R67, R70, R77). -/
def placeDl (sn : Snapshot) (pr : Progress) : OrderEntry → Progress
  | .redo e =>
    match findRange sn pr e.grade e.width with
    | some f => takeRange sn pr e.context e.grade e.width f e.bytes (some e)
    | none => pr
  | .fresh c =>
    let y := (gradeRow c.grade).yield
    match narrowRange sn pr c.grade (dlStartWidth c.backlog y) with
    | some (f, w) => takeRange sn pr c.context c.grade w f (min c.backlog (Config.slots * w * y)) none
    | none => { pr with unplaced := pr.unplaced + 1 }

/-! ## Uplink (R73–R76, R78) -/

/-- The shadow slots after a grant whose last slot is `last` (R74). -/
def shadowSlots (k k7 last : Nat) : Nat := if last = 7 then k7 else k

/-- First slots in the order tried: downward for a late subscriber, upward otherwise (R75). -/
def firstSlots (k height : Nat) : List Nat :=
  let up := List.range (Config.slots + 1 - height)
  if 1 ≤ k then up.reverse else up

/-- Positions as first sub-band and first slot, in the order tried (R75). -/
def positionsTried (bands k width height : Nat) : List (Nat × Nat) :=
  (firstSlots k height).flatMap fun slot => (firstBands bands width).map fun f => (f, slot)

/-- A position qualifies: its grant tiles and its shadow tiles of slot 7 or below are FREE (R75). -/
def positionQualifies (g : Grid) (k k7 width height : Nat) (p : Nat × Nat) : Bool :=
  let last := p.2 + height - 1
  rectFree g p.1 width p.2 height && rectFree g p.1 width (last + 1) (min (shadowSlots k k7 last) (7 - last))

/-- The first qualifying position at one height (R75). -/
def findPosition (sn : Snapshot) (g : Grid) (k k7 width height : Nat) : Option (Nat × Nat) :=
  (positionsTried sn.bands.bands k width height).find? (positionQualifies g k k7 width height)

/-- The first qualifying position from a height downward, with the height it is found at (R75). -/
def narrowPosition (sn : Snapshot) (g : Grid) (k k7 width : Nat) : Nat → Option ((Nat × Nat) × Nat)
  | 0 => none
  | h + 1 =>
    match findPosition sn g k k7 width (h + 1) with
    | some p => some (p, h + 1)
    | none => narrowPosition sn g k k7 width h

/-- The starting height of an uplink candidate: ceil(n / w) for n = ceil(x / y), at most 8 (R73). -/
def ulStartHeight (backlog yield width : Nat) : Nat := min Config.slots (ceilDiv (ceilDiv backlog yield) width)

/-- The spill tiles of a position: shadow slots of 8 or above, restated as slots of the following epoch (R74). -/
def spillTiles (first width last shadow : Nat) : List (Nat × Nat) :=
  (List.range width).flatMap fun i =>
    ((List.range shadow).filter fun j => decide (8 ≤ last + 1 + j)).map fun j => (first + i, last + 1 + j - 8)

/-- An uplink grant takes its position (R76). -/
def takePosition (pr : Progress) (c : Index) (grade width height k k7 : Nat) (p : Nat × Nat) (bytes : Nat)
    (redo : Option RedoEntry) : Progress :=
  let last := p.2 + height - 1
  let shadow := shadowSlots k k7 last
  { pr with
    grid :=
      paint (paint pr.grid p.1 width p.2 height .taken) p.1 width (last + 1) (min shadow (7 - last)) .shadow
    placed :=
      pr.placed ++
        [{ context := c, direction := .ul, firstBand := p.1, width := width, firstSlot := p.2,
           height := height, grade := grade, capacity := width * height * (gradeRow grade).yield,
           bytes := bytes, tilePower := 0, redo := redo, edge := false,
           spill := spillTiles p.1 width last shadow }] }

/-- The snapshot's figures of a context; none for a context that was FREE. -/
def Snapshot.find (sn : Snapshot) (i : Index) : Option SnapContext := sn.contexts.find? fun c => c.index == i

/-- k for figures of the snapshot (R37). -/
def Snapshot.k (sn : Snapshot) (rtd margin : Nat) : Nat := shadowCount sn.advanceLimit sn.slotTime rtd margin

/-- k7 for figures of the snapshot (R37). -/
def Snapshot.k7 (sn : Snapshot) (rtd margin : Nat) : Nat :=
  tailShadowCount sn.advanceLimit sn.tailGuard sn.slotTime rtd margin

/-- One uplink entry is placed or passed over (R67, R75, R78). -/
def placeUl (sn : Snapshot) (pr : Progress) : OrderEntry → Progress
  | .redo e =>
    match sn.find e.context with
    | some c =>
      if c.ulBarred then pr
      else
        let k := sn.k c.rtd c.lateMargin
        let k7 := sn.k7 c.rtd c.lateMargin
        match findPosition sn pr.grid k k7 e.width e.height with
        | some p => takePosition pr e.context e.grade e.width e.height k k7 p e.bytes (some e)
        | none => pr
    | none => pr
  | .fresh c =>
    let row := gradeRow c.grade
    let k := sn.k c.rtd c.lateMargin
    let k7 := sn.k7 c.rtd c.lateMargin
    match narrowPosition sn pr.grid k k7 row.ulWidth (ulStartHeight c.backlog row.yield row.ulWidth) with
    | some (p, h) =>
      takePosition pr c.context c.grade row.ulWidth h k k7 p
        (min c.backlog (row.ulWidth * h * row.yield)) none
    | none => { pr with unplaced := pr.unplaced + 1 }

/-! ## A direction's placement (R67) -/

/-- One entry is taken unless the direction already holds 16 grants (R67). -/
def placeNext (place : Progress → OrderEntry → Progress) (pr : Progress) (e : OrderEntry) : Progress :=
  if pr.placed.length < Config.grantsMax then place pr e else pr

/-- The downlink of a run. -/
def placeDownlink (r : Run) : Progress :=
  r.dlOrder.foldl (placeNext (placeDl r.snapshot))
    { grid := r.dlGrid, remaining := r.snapshot.allowance, placed := [], unplaced := 0 }

/-- The uplink of a run. -/
def placeUplink (r : Run) : Progress :=
  r.ulOrder.foldl (placeNext (placeUl r.snapshot))
    { grid := r.ulGrid, remaining := r.snapshot.allowance, placed := [], unplaced := 0 }

end Sys2Proof.Machine
end

