-- ==== Sys2Proof/Machine/Completion.lean ====
section
/-!
DEFINITION. The completion of a run: striking, numbering, the PLAN record and every hand-off (R22, R55–R57, R79–R84,
R116, R122).
-/
namespace Sys2Proof.Machine

/-! ## Striking and numbering (R22, R79) -/

/-- The live test of R22: the context is neither CLOSING nor FREE and still has the snapshot's attach_no. -/
def isLive (s : State) (c : SnapContext) : Bool :=
  (ctx s c.index).state.attached && (ctx s c.index).attachNo == c.attachNo

/-- A placed grant survives the strike. -/
def survives (s : State) (sn : Snapshot) (p : Placed) : Bool :=
  match sn.find p.context with
  | some c => isLive s c
  | none => false

/-- The placed grants of a run in plan order: downlink as placed, then uplink as placed (R79). -/
def placedGrants (r : Run) : List Placed := (placeDownlink r).placed ++ (placeUplink r).placed

/-- The delivered grants in plan order, after the strike (R79). -/
def deliveredGrants (s : State) (r : Run) : List Placed := (placedGrants r).filter (survives s r.snapshot)

/-- The ident a grant carries: the snapshot's (R84). -/
def identOf (sn : Snapshot) (i : Index) : Nat :=
  match sn.find i with
  | some c => c.ident
  | none => 0

/-- The redo number of a placed grant: 0 for new data (R84). -/
def Placed.redoNumber (p : Placed) : Nat :=
  match p.redo with
  | some e => e.redoNumber
  | none => 0

/-- The grant record of a delivered grant (R84). -/
def grantRecord (sn : Snapshot) (p : Placed) (n : Nat) : Grant :=
  { index := n, context := p.context, ident := identOf sn p.context, direction := p.direction,
    firstBand := p.firstBand, width := p.width, firstSlot := p.firstSlot, height := p.height, grade := p.grade,
    scheme := (gradeRow p.grade).scheme, repetition := (gradeRow p.grade).repetition, capacity := p.capacity,
    bytes := p.bytes, tilePower := p.tilePower, redoNumber := p.redoNumber }

/-- The plan power: the sum of the powers of the delivered downlink grants (R71). -/
def planPower (l : List Placed) : Nat := (l.map Placed.power).sum

/-- The PLAN record of a run (R82). -/
def planOf (r : Run) (delivered : List Placed) : Plan :=
  { target := r.target
    dlCount := (delivered.filter fun p => p.direction == .dl).length
    ulCount := (delivered.filter fun p => p.direction == .ul).length
    power := planPower delivered
    allowance := r.snapshot.allowance
    effectiveFloor := r.snapshot.effectiveFloor
    grants := delivered.zipIdx.map fun pn => grantRecord r.snapshot pn.1 pn.2 }

/-! ## Hand-offs to the tracking blocks and the SCT (R80) -/

/-- The OGT entry of a delivered grant (R80, R92). -/
def trackedGrant (target : Epoch) (window : Nat) (p : Placed) (n : Nat) : OgtEntry :=
  { tag := { epoch := target, index := n }, context := p.context, direction := p.direction, width := p.width,
    height := p.height, grade := p.grade, bytes := p.bytes, committed := false,
    feedbackDeadline := epochAfter target window, redoNumber := p.redoNumber,
    origin := p.redo.map fun e => { tag := e.origin, deadline := e.deadline, order := e.order } }

/-- The batch enters the ring and the OGT as SENT (R80, R86). -/
def enterBatch (target : Epoch) (delivered : List Placed) (s : State) : State :=
  setOgt
    (s.tracking.ogt ++ delivered.zipIdx.map fun pn => trackedGrant target s.config.window pn.1 pn.2)
    (setBatch target .sent s)

/-- Outstanding rises by 1 for each delivered grant (R80). -/
def raiseOutstanding (delivered : List Placed) (s : State) : State :=
  delivered.foldl (fun t p => addOutstanding p.context t) s

/-- Each delivered new-data grant charges its backlog (R31, R80). -/
def chargeGrants (delivered : List Placed) (s : State) : State :=
  (delivered.filter fun p => p.redo.isNone).foldl (fun t p => charge p.context p.direction p.bytes t) s

/-- The origin tags of the redo entries that delivered grants consume. -/
def consumedTags (delivered : List Placed) : List Tag :=
  (delivered.filterMap Placed.redo).map RedoEntry.origin

/-- Consumed redo entries leave the live list without event (R80). -/
def consumeRedo (delivered : List Placed) (s : State) : State :=
  setRedo (s.tracking.redo.filter fun e => !(consumedTags delivered).contains e.origin) s

/-- The new-data grants of a context in a direction. -/
def freshFor (delivered : List Placed) (i : Index) (d : Direction) : List Placed :=
  delivered.filter fun p => p.redo.isNone && p.context == i && p.direction == d

/-- avg − floor(avg / 16) + s, held at 1,048,575 (R55). -/
def averageAfter (avg served : Nat) : Nat := min Config.backlogMax (avg - avg / 16 + served)

/-- A new-data grant sets last_served to the target (R57). -/
def servedAt (l : List Placed) (target : Epoch) (before : Option Epoch) : Option Epoch :=
  if l.isEmpty then before else some target

/-- The averages and last_served of one context after a completed run (R55, R57). -/
def Context.served (c : Context) (target : Epoch) (dl ul : List Placed) : Context :=
  { c with
    avgDl := averageAfter c.avgDl ((dl.map Placed.bytes).sum)
    avgUl := averageAfter c.avgUl ((ul.map Placed.bytes).sum)
    lastServedDl := servedAt dl target c.lastServedDl
    lastServedUl := servedAt ul target c.lastServedUl }

/-- Every context that was ACTIVE in the snapshot and passes the live test is updated (R55, R56, R57). -/
def updateAverages (target : Epoch) (delivered : List Placed) (sn : Snapshot) (s : State) : State :=
  (sn.contexts.filter fun c => c.state == .active && isLive s c).foldl
    (fun t c =>
      setCtx c.index
        ((ctx t c.index).served target (freshFor delivered c.index .dl) (freshFor delivered c.index .ul)) t)
    s

/-! ## Hand-offs to the other blocks (R81) -/

/-- The delivered grants whose edge status is set. -/
def edgeGrants (delivered : List Placed) : List Placed := delivered.filter fun p => p.edge

/-- The edge demand: tiles of the delivered edge grants (R81). -/
def edgeTiles (delivered : List Placed) : Nat := ((edgeGrants delivered).map fun p => p.width * p.height).sum

/-- The sub-bands a grant covers, as a set. -/
def Placed.bandSet (p : Placed) : SubBands := (List.range p.width).foldl (fun u i => withBand u (p.firstBand + i)) 0#24

/-- The edge sub-band count: distinct sub-bands of the delivered edge grants (R81). -/
def edgeBands (delivered : List Placed) : Nat :=
  (members ((edgeGrants delivered).foldl (fun u p => u ||| p.bandSet) 0#24)).length

/-- The plan power reaches the PAU, the edge figures the ERU, and the carry list is replaced (R81, R113, R122). -/
def handFigures (target : Epoch) (delivered : List Placed) (s : State) : State :=
  { s with
    power := { s.power with pPrev := planPower delivered }
    edge := { s.edge with demand := edgeTiles delivered, subBands := edgeBands delivered }
    engine :=
      { s.engine with carrySource := some target, carryTiles := delivered.flatMap fun p => p.spill } }

/-- The run completes as one act (R79–R82, R116). -/
def completeRun (r : Run) (s : State) : State :=
  let delivered := deliveredGrants s r
  let struck := (placedGrants r).length - delivered.length
  let unplaced := (placeDownlink r).unplaced + (placeUplink r).unplaced
  let tracked :=
    consumeRedo delivered
      (chargeGrants delivered (raiseOutstanding delivered (enterBatch r.target delivered (discardRun s))))
  let figures := handFigures r.target delivered (updateAverages r.target delivered r.snapshot tracked)
  let queued := { figures with link := figures.link.enqueue (.plan (planOf r delivered)) }
  let announced := frameDue (announcement queued r.target (planPower delivered)) queued
  advance .unplaced unplaced (advance .grantsStruck struck announced)

/-- The outbound queue has an entry for the PLAN.  R163 states that a PLAN always finds one; the model completes a
run only then (assumption 12). -/
def planFits (s : State) : Bool := decide (0 < s.link.outboundFree)

end Sys2Proof.Machine
end

