-- ==== Sys2Proof/Machine/Alignment.lean ====
section
/-!
DEFINITION. Alignment Control: the epoch watch, the listening conditions and the common mode, the effects of MARK, and
the clamping of a CONFIG body (chapter 9, R108, R120, R150).
-/
namespace Sys2Proof.Machine

/-! ## The epoch watch (R153) -/

/-- The interval, in nanoseconds, is within 2% of a period: both ends belong to the range (R1, R153). -/
def withinPeriod (p : Period) (interval : Nat) : Bool :=
  match p with
  | .ms2 => decide (1960000 ≤ interval) && decide (interval ≤ 2040000)
  | .ms4 => decide (3920000 ≤ interval) && decide (interval ≤ 4080000)

/-- The period an interval measures, if it is within tolerance of one (R153). -/
def measuredPeriod (interval : Nat) : Option Period :=
  if withinPeriod .ms2 interval then some .ms2 else if withinPeriod .ms4 interval then some .ms4 else none

/-- The interval is within tolerance of the period that is set (R153). -/
def intervalRegular (a : Alignment) (interval : Nat) : Bool :=
  match a.period with
  | some p => withinPeriod p interval
  | none => false

/-- The state with the watch in a state. -/
def setWatch (w : WatchState) (s : State) : State := { s with align := { s.align with watch := w } }

/-- EPOCH_FAULT with the epoch count as subject (R153). -/
def epochFault (s : State) : State := setEvent .epochFault (epochField s.align.epoch) .none s

/-- The period is set and ul_barred derived again for every context that is not FREE (R38, R153). -/
def setPeriod (p : Period) (s : State) : State :=
  deriveAllBars { s with align := { s.align with watch := .regular, period := some p } }

/-- The watch judges a pulse by the interval since the pulse before it (R153). -/
def judgeWatch (interval : Nat) (s : State) : State :=
  match s.align.watch with
  | .unset =>
    if s.align.timing then
      match measuredPeriod interval with
      | some p => setPeriod p s
      | none => epochFault s
    else { s with align := { s.align with timing := true } }
  | .regular => if intervalRegular s.align interval then s else epochFault (setWatch .faulty s)
  | .faulty => if intervalRegular s.align interval then setWatch .regular s else epochFault s
  | .lost => setWatch .faulty s

/-- The judgement of a pulse sets EPOCH_FAULT (R153). -/
def watchFaults (interval : Nat) (a : Alignment) : Bool :=
  match a.watch with
  | .unset => a.timing && (measuredPeriod interval).isNone
  | .regular | .faulty => !intervalRegular a interval
  | .lost => false

/-! ## The common mode (R154) -/

/-- The intersection of two sets of counts. -/
def Counts.meet (a b : Counts) : Counts := ⟨a.c12 && b.c12, a.c16 && b.c16, a.c24 && b.c24⟩

/-- The set holds no count. -/
def Counts.isEmpty (a : Counts) : Bool := !a.c12 && !a.c16 && !a.c24

/-- The largest count of a set (R154). -/
def Counts.largest (a : Counts) : BandCount := if a.c24 then .s24 else if a.c16 then .s16 else .s12

/-- The decision as it proceeds over the counted peers. -/
structure Decision where
  running : Counts
  edge : Bool
  /-- In ascending station number. -/
  excluded : List Station
  deriving DecidableEq, Repr

/-- One counted peer: its intersection becomes the running set, or it is excluded (R154). -/
def Decision.take (d : Decision) (j : Station) (a : Ability) : Decision :=
  if (d.running.meet a.counts).isEmpty then { d with excluded := d.excluded ++ [j] }
  else { d with running := d.running.meet a.counts, edge := d.edge && a.edge }

/-- The ability word of a counted peer: PRESENT or STALE with an ability word (R154). -/
def Peer.countedAbility (p : Peer) : Option Ability := if p.state == .absent then none else p.ability

/-- One record of the Peer Table in the decision. -/
def decideOne (t : PeerTable) (d : Decision) (j : Station) : Decision :=
  match (t.records.get j).countedAbility with
  | some a => d.take j a
  | none => d

/-- The decision from the Peer Table as it stands (R154). -/
def decideMode (p : Params) (t : PeerTable) : Decision :=
  (List.finRange 8).foldl (decideOne t) { running := p.counts, edge := p.edgeCapable, excluded := [] }

/-- The common mode a decision gives (R154). -/
def Decision.mode (d : Decision) : Mode := { bands := d.running.largest, edge := d.edge }

/-- The state with one record of the Peer Table replaced. -/
def setPeer (j : Station) (p : Peer) (s : State) : State :=
  { s with peers := { s.peers with records := s.peers.records.set j p } }

/-- A record is written and PEER_INCOMPATIBLE is set when its incompatible flag passes from no to yes (R147). -/
def writePeer (j : Station) (p : Peer) (s : State) : State :=
  if p.incompatible && !(s.peers.records.get j).incompatible then
    setEvent .peerIncompatible j.val .none (setPeer j p s)
  else setPeer j p s

/-- A station is marked excluded (R147, R154). -/
def excludePeer (s : State) (j : Station) : State :=
  writePeer j { s.peers.records.get j with excluded := true } s

/-- The five listening conditions (R154). -/
def listeningMet (s : State) : Bool :=
  s.align.epoch.isSome && decide (Config.listenedNeeded ≤ s.align.listened) &&
    decide (Config.settleNeeded ≤ s.peers.settle) && s.align.watch == .regular && !s.link.lost

/-- The common mode is decided, MODE_SET is set and the part enters OPERATING with the ERU's counter 0
(R125, R154). -/
def enterOperating (s : State) : State :=
  let d := decideMode s.config s.peers
  let marked := d.excluded.foldl excludePeer s
  let moded :=
    setEvent .modeSet (epochField s.align.epoch) (.figure d.mode.bands.bands)
      { marked with align := { marked.align with mode := some d.mode } }
  { moded with
    align := { moded.align with opState := .operating }
    edge := { moded.edge with counter := 0 } }

/-- The test of the listening conditions at a pulse taken in LISTENING (R154). -/
def testListening (s : State) : State :=
  if s.align.opState == .listening && listeningMet s then enterOperating s else s

/-- A pulse in LISTENING makes an ABILITY due and raises the listened count (R133, R154). -/
def listenPulse (s : State) : State :=
  if s.align.opState == .listening then
    frameDue (abilityFrame s)
      { s with align := { s.align with listened := min Config.listenMax (s.align.listened + 1) } }
  else s

/-! ## MARK (R155, R157) -/

/-- A MARK finds the aligned count not at 1,023: MARKER_SLIP with the old count (R155). -/
def testSlip (s : State) : State :=
  match s.align.epoch with
  | some e => if e ≠ 1023 then setEvent .markerSlip e.val .none s else s
  | none => s

/-- Marker recovery in OPERATING (R65, R104, R155); `p` is the epoch before the pulse.  The abort with its PLAN_MISSED
comes before the emptying with its RELEASED notices, an order R24, R65 and R104 leave open: DESIGN CHOICE
(assumption 34). -/
def recoverMarker (p : Epoch) (s : State) : State :=
  restateEdge p (emptyTracking (emptyCarry (abortRun true s)))

/-- The part leaves HOLDING (R157). -/
def leaveHolding (s : State) : State :=
  let emptied := emptyTracking (emptyCarry s)
  { emptied with edge := Edge.reset, align := { emptied.align with opState := .operating } }

/-- Both exit conditions hold: the watch is REGULAR and the link VALID (R157). -/
def exitMet (s : State) : Bool := s.align.watch == .regular && !s.link.lost

/-- What the MARK does by the operating state after the judgement (R155). -/
def markEffect (p : Epoch) (s : State) : State :=
  match s.align.opState with
  | .operating => recoverMarker p s
  | .holding => if exitMet s then leaveHolding s else restateTracking p s
  | .listening | .unconfigured => s

/-! ## CONFIG (R108, R120, R150) -/

/-- A figure taken to the nearer end of a range. -/
def clampTo (lo hi n : Nat) : Nat := min hi (max lo n)

/-- S_age: 0 is off, 1–7 taken as 8, above 255 as 255 (R150). -/
def clampAge (n : Nat) : Nat := if n = 0 then 0 else clampTo 8 255 n

/-- Supported counts: an empty set is taken as all three (R150). -/
def clampCounts (b : Byte) : Counts :=
  let c : Counts := ⟨b.getLsbD 0, b.getLsbD 1, b.getLsbD 2⟩
  if c.isEmpty then ⟨true, true, true⟩ else c

/-- The adjacency set with the own station removed (R120). -/
def clampAdjacency (own : Station) (b : Byte) : Byte := b &&& ~~~(1#8 <<< own.val)

/-- The values in force of a CONFIG body, each clamp taken against values already clamped (R108, R120, R150). -/
def clampConfig (own : Station) (b : ConfigBody) : Params :=
  let budget := clampTo 64 4095 b.budget.toNat
  let t1 := min budget b.t1.toNat
  let tMin := min 4 b.tMin.toNat
  { counts := clampCounts b.counts
    edgeCapable := b.counts.getLsbD 7
    budget := budget
    floorShare := min budget b.floorShare.toNat
    rampStep := clampTo 8 1024 b.rampStep.toNat
    t1 := t1
    t2 := min t1 b.t2.toNat
    adjacency := clampAdjacency own b.adjacency
    advanceLimit := min 700 b.advanceLimit.toNat
    tailGuard := min 250 b.tailGuard.toNat
    maxShadow := min 3 b.maxShadow.toNat
    window := clampTo 2 8 b.window.toNat
    redoMax := min 3 b.redoMax.toNat
    redoDistance := clampTo 2 16 b.redoDistance.toNat
    idleTimer := clampTo 16 1024 b.idleTimer.toNat
    admitTimeout := clampTo 16 255 b.admitTimeout.toNat
    ageLimit := clampAge b.ageLimit.toNat
    edgeGrade := clampTo 1 8 b.edgeGrade.toNat
    quietGrade := clampTo 9 15 b.quietGrade.toNat
    tMin := tMin
    tMax := clampTo tMin 8 b.tMax.toNat
    updateInterval := clampTo 4 64 b.updateInterval.toNat
    holdDown := clampTo 8 255 b.holdDown.toNat
    maxSubscribers := clampTo 1 256 b.maxSubscribers.toNat
    keepPolicy := b.overrun == 1 }

/-- The Event Unit with the enables, levels and threshold of a CONFIG, ALERT judged anew (R150, R166, R167). -/
def configEvents (b : ConfigBody) (e : EventUnit) : EventUnit :=
  EventUnit.judged
    { e with
      enables := b.enables.setWidth 29
      levels := b.levels.setWidth 58
      threshold := clampTo 1 3 b.threshold.toNat }

/-- For each field 0–27 in the order of R174, whether the value in force differs from the value given.  Supported
counts report no clamp (R150); unused bits are no clamp (R180). -/
def clampedFields (given held : ConfigBody) : List Bool :=
  [false, false, given.budget != held.budget, given.floorShare != held.floorShare,
   given.rampStep != held.rampStep, given.t1 != held.t1, given.t2 != held.t2,
   given.adjacency != held.adjacency, given.advanceLimit != held.advanceLimit,
   given.tailGuard != held.tailGuard, given.maxShadow != held.maxShadow, given.window != held.window,
   given.redoMax != held.redoMax, given.redoDistance != held.redoDistance,
   given.idleTimer != held.idleTimer, given.admitTimeout != held.admitTimeout,
   given.ageLimit != held.ageLimit, given.edgeGrade != held.edgeGrade,
   given.quietGrade != held.quietGrade, given.tMin != held.tMin, given.tMax != held.tMax,
   given.updateInterval != held.updateInterval, given.holdDown != held.holdDown,
   given.maxSubscribers != held.maxSubscribers, given.overrun != held.overrun, false, false,
   given.threshold != held.threshold]

/-- A list of Bools as a mask, position 0 in bit 0. -/
def maskOf : List Bool → BitVec 32
  | [] => 0#32
  | b :: bs => (maskOf bs <<< 1) ||| (if b then 1#32 else 0#32)

/-- The Peer Table with the adjacent flags written from the adjacency set; the own station is never adjacent
(R143). -/
def writeAdjacency (own : Station) (set : Byte) (t : PeerTable) : PeerTable :=
  { t with
    records := t.records.mapWith fun j p => { p with adjacent := set.getLsbD j.val && decide (j ≠ own) } }

end Sys2Proof.Machine
end

