-- ==== Sys2Proof/Machine/Peers.lean ====
section
/-!
DEFINITION. The Peer Table: its ageing at a pulse, and the frames it takes from the line, inside a pulse's work and
outside it (R141, R142, R144–R148).
-/
namespace Sys2Proof.Machine

/-! ## The Peer Table at a pulse (R145, R148) -/

/-- The silence count of a record that is not ABSENT rises by 1 (R145). -/
def Peer.aged (p : Peer) : Peer := if p.state == .absent then p else { p with silence := p.silence + 1 }

/-- The silence counts and the settle count at a pulse (R145, R148). -/
def agePeers (s : State) : State :=
  { s with
    peers := { records := s.peers.records.map Peer.aged, settle := min Config.listenMax (s.peers.settle + 1) } }

/-- A PRESENT record's silence count has reached 4 (R145). -/
def Peer.staleDue (p : Peer) : Bool := p.state == .present && decide (Config.staleAt ≤ p.silence)

/-- A record that is not ABSENT has a silence count of 64 (R145). -/
def Peer.absentDue (p : Peer) : Bool := p.state != .absent && decide (Config.absentAt ≤ p.silence)

/-- A record takes the empty values of ABSENT; excluded and adjacent stay (R143). -/
def Peer.emptied (p : Peer) : Peer := { Peer.reset with excluded := p.excluded, adjacent := p.adjacent }

/-- A PRESENT record whose silence count reaches 4 passes to STALE (R145). -/
def stalePeer (j : Station) (s : State) : State :=
  let p := s.peers.records.get j
  if p.staleDue then setPeer j { p with state := .stale } s else s

/-- A record whose silence count reaches 64 passes to ABSENT with PEER_ABSENT, and the settle count is 0
(R143, R145, R148). -/
def absentPeer (j : Station) (s : State) : State :=
  let p := s.peers.records.get j
  if p.absentDue then
    let emptied := setPeer j p.emptied s
    setEvent .peerAbsent j.val .none { emptied with peers := { emptied.peers with settle := 0 } }
  else s

/-! ## The line -/

/-- The port watches and uses the line: not in UNCONFIGURED, and its own transmission is busy line (R139, R141). -/
def seesLine (s : State) : Bool := s.align.opState != .unconfigured && s.bus.access != .sending

/-! ## Frames received (R141, R142, R144, R146–R148) -/

/-- The part's own epoch count when a frame began (R146). -/
def ownEpochAtStart (s : State) (acrossPulse : Bool) : Option Epoch :=
  if acrossPulse then s.align.lastEpoch else s.align.epoch

/-- The misaligned flag after a frame: judged only when both epochs are numbers (R146). -/
def misalignedAfter (own heard : Option Epoch) (before : Bool) : Bool :=
  match own, heard with
  | some a, some b => a != b
  | _, _ => before

/-- The mode mismatch flag after an ANNOUNCE: judged while the part has a common mode, in OPERATING or HOLDING
(R147). -/
def mismatchAfter (s : State) (heard : Option Mode) (before : Bool) : Bool :=
  if tracks s then s.align.mode != heard else before

/-- A record as a frame leaves it PRESENT with silence count 0 (R144). -/
def Peer.heard (p : Peer) : Peer := { p with state := .present, silence := 0 }

/-- A record is written after a frame; PEER_MISALIGNED is set when its misaligned flag passes from no to yes
(R146), and PEER_INCOMPATIBLE when the incompatible flag does (R147).  When one ANNOUNCE sets both, PEER_INCOMPATIBLE
comes first: DESIGN CHOICE (assumption 41). -/
def writeHeard (j : Station) (p : Peer) (s : State) : State :=
  let written := writePeer j p s
  if p.misaligned && !(s.peers.records.get j).misaligned then setEvent .peerMisaligned j.val .none written
  else written

/-- The settle count set to 0 when the heard peers or their abilities changed (R148). -/
def unsettle (changed : Bool) (s : State) : State :=
  if changed then { s with peers := { s.peers with settle := 0 } } else s

/-- A valid frame whose station is the part's own: DUPLICATE_STATION and nothing else (R142). -/
def duplicateStation (s : State) : State := setEvent .duplicateStation s.align.station.val .none s

/-- Record `j` as an ANNOUNCE leaves it (R144, R180). -/
def announcedPeer (f : AnnounceFrame) (acrossPulse : Bool) (s : State) : Peer :=
  let p := s.peers.records.get f.station
  { p.heard with
    claim := min Config.claimMax f.claim.toNat
    reserved := f.reserved
    demand := min Config.demandMax f.demand.toNat
    misaligned := misalignedAfter (ownEpochAtStart s acrossPulse) (frameEpoch f.epoch) p.misaligned
    mismatch := mismatchAfter s (frameMode f.modeCode f.modeEdge) p.mismatch }

/-- A passage of record `j` that the last pulse's ageing has made due belongs to that pulse and comes before a frame
that is taken after the ageing (R145). -/
def passDue (j : Station) (s : State) : State := if s.pulse.pending then absentPeer j (stalePeer j s) else s

/-- A frame is taken into record `j`: the record is written, and a changed site sets the settle count to 0
(R144, R148). -/
def takeFrame (j : Station) (changed : Bool) (p : Peer) (s : State) : State := unsettle changed (writeHeard j p s)

/-- A valid ANNOUNCE at the Peer Table (R142, R144).  One that makes an ABSENT record PRESENT sets the settle count to
0, as the first case of R148 says, although the same rule ends "neither does any ANNOUNCE": DEDUCED (assumption 40). -/
def hearAnnounce (f : AnnounceFrame) (acrossPulse : Bool) (s : State) : State :=
  if f.station = s.align.station then duplicateStation s
  else
    let t := passDue f.station s
    takeFrame f.station ((t.peers.records.get f.station).state == .absent) (announcedPeer f acrossPulse t) t

/-- The ability word of an ABILITY frame. -/
def abilityWord (f : AbilityFrame) : Ability := { counts := ⟨f.c12, f.c16, f.c24⟩, edge := f.edge }

/-- Record `j` as an ABILITY leaves it (R144). -/
def abilityPeer (f : AbilityFrame) (acrossPulse : Bool) (s : State) : Peer :=
  let p := s.peers.records.get f.station
  { p.heard with
    ability := some (abilityWord f)
    misaligned := misalignedAfter (ownEpochAtStart s acrossPulse) (frameEpoch f.epoch) p.misaligned }

/-- A valid ABILITY at the Peer Table (R142, R144, R148). -/
def hearAbility (f : AbilityFrame) (acrossPulse : Bool) (s : State) : State :=
  if f.station = s.align.station then duplicateStation s
  else
    let t := passDue f.station s
    takeFrame f.station
      ((t.peers.records.get f.station).state == .absent ||
        (t.peers.records.get f.station).ability != some (abilityWord f))
      (abilityPeer f acrossPulse t) t

/-- A frame on the line ends with 16 µs of idle line, which the idle watch sees and after which a frame may begin
(R139, R141). -/
def lineSeenIdle (s : State) : State := { s with bus := { s.bus with idleSeen := true, midFrame := false } }

/-- A frame on the line is taken, or passes unheard in UNCONFIGURED, while the own transmitter is active, and as the
remainder of a frame in which the transmitter stopped (R141).  A frame that began in UNCONFIGURED and ends in LISTENING
is taken, by the state in which it ends, which R141 leaves open: DESIGN CHOICE (assumption 50). -/
def whenHearing (hear : State → State) (s : State) : State :=
  if seesLine s then (if s.bus.midFrame then lineSeenIdle s else hear (lineSeenIdle s)) else s

end Sys2Proof.Machine
end

