-- ==== Sys2Proof/Machine/Pulse.lean ====
section
/-!
DEFINITION. The work of an EPOCH pulse, block by block: the start of a run, the SCT's counts, admission timeouts and
dormancy, the void, the expiry, the deadline removal, the ERU's work, and the order in
which they are taken (R11–R14, R59–R65, R90, R96, R101, R125, R129, R139, R145, R148, R152).
-/
namespace Sys2Proof.Machine

/-! ## The start of a run (R59, R60, R109) -/

/-- The run for a target begins: the allowance, the snapshot, the ranked orders and the fresh grids. -/
def beginRun (target : Epoch) (m : Mode) (s : State) : State :=
  let computed := computeAllowance target s
  let sn := takeSnapshot target m.bands computed
  { computed with
    engine :=
      { computed.engine with
        run :=
          some
            { target := target, snapshot := sn, dlOrder := orderOf sn target .dl, ulOrder := orderOf sn target .ul,
              dlGrid := freeGrid m.bands.bands, ulGrid := carriedGrid m.bands.bands sn.carry } } }

/-- A pulse at the Allocation Engine: in OPERATING a run still RUNNING is aborted and the run for n + 2 starts
(R59, R63). -/
def startRun (s : State) : State :=
  if s.align.opState == .operating then
    let aborted := abortRun true s
    match aborted.align.mode with
    | some m => beginRun (epochAfter (now aborted) 2) m aborted
    | none => aborted
  else s

/-! ## The SCT at a pulse (R11, R13, R14) -/

/-- The four conditions of R13. -/
def isIdle (s : State) (i : Index) (c : Context) : Bool :=
  c.dlBacklog == 0 && c.ulBacklog == 0 && c.outstanding == 0 && redoCount s i == 0

/-- One context's counts at a pulse (R11, R13, R18). -/
def countContext (s : State) (i : Index) (c : Context) : Context :=
  match c.state with
  | .admitting => { c with admitCount := c.admitCount + 1 }
  | .active => { c with idleCount := if isIdle s i c then c.idleCount + 1 else 0 }
  | .free | .dormant | .closing => c

/-- The admission and idle counts of every context (R11, R13). -/
def countContexts (s : State) : State := { s with contexts := s.contexts.mapWith (countContext s) }

/-- The admission timeout of a context is reached (R11). -/
def timeoutDue (s : State) (c : Context) : Bool :=
  c.state == .admitting && decide (s.config.admitTimeout ≤ c.admitCount)

/-- An ADMITTING context whose count has reached the admit timeout goes to FREE with ATTACH_TIMEOUT (R11). -/
def timeoutContext (i : Index) (s : State) : State :=
  if timeoutDue s (ctx s i) then setEvent .attachTimeout i.val .none (enterFree i s) else s

/-- The idle timer of a context is reached (R14). -/
def dormancyDue (s : State) (c : Context) : Bool :=
  c.state == .active && decide (s.config.idleTimer ≤ c.idleCount)

/-- An ACTIVE context whose idle count has reached the idle timer becomes DORMANT with its averages cleared
(R14). -/
def dormantContext (i : Index) (s : State) : State :=
  if dormancyDue s (ctx s i) then
    setCtx i { ctx s i with state := .dormant, idleCount := 0, avgDl := 0, avgUl := 0 } s
  else s

/-! ## The bus watch at a pulse (R139) -/

/-- The idle watch judges the epoch that ended, except at the first pulse, which starts it (R139). -/
def judgeBus (s : State) : State :=
  let judged :=
    { s with
      bus :=
        { s.bus with
          watchStarted := true
          idleSeen := false
          stuck := if s.bus.watchStarted then !s.bus.idleSeen else s.bus.stuck } }
  if s.bus.watchStarted && !s.bus.idleSeen then
    setEvent .busStuck (epochField s.align.epoch) .none judged
  else judged

/-! ## The ERU at a pulse (R125) -/

/-- The ERU counts a pulse: OPERATING with edge coordination on (R125). -/
def edgeCounts (s : State) : Bool := s.align.opState == .operating && edgeOn s

/-- The counter reaches U at this pulse (R125). -/
def updateReached (s : State) : Bool := edgeCounts s && decide (s.config.updateInterval ≤ s.edge.counter + 1)

/-- The update counter at a pulse: up by 1, and 0 when it reaches U (R125). -/
def countEdge (s : State) : State :=
  if edgeCounts s then
    { s with edge := { s.edge with counter := if updateReached s then 0 else s.edge.counter + 1 } }
  else s

/-! ## Taking one part of the pulse's work -/

/-- Entry to HOLDING for an EPOCH_FAULT of this pulse, if not taken yet (R156). -/
def takeEntry (s : State) : State :=
  if s.pulse.entry then holdIfOperating { s with pulse := { s.pulse with entry := false } } else s

/-- The listening test of this pulse, if not taken yet (R154). -/
def takeDecide (s : State) : State :=
  if s.pulse.decide then testListening { s with pulse := { s.pulse with decide := false } } else s

/-- The Allocation Engine's pulse, if not taken yet (R59). -/
def takeStart (s : State) : State :=
  if s.pulse.start then startRun { s with pulse := { s.pulse with start := false } } else s

/-- The SCT's counts, if not taken yet (R11, R13). -/
def takeCounts (s : State) : State :=
  if s.pulse.counts then countContexts { s with pulse := { s.pulse with counts := false } } else s

/-- The Peer Table's ageing, if not taken yet (R145, R148). -/
def takeAgeing (s : State) : State :=
  if s.pulse.ageing then agePeers { s with pulse := { s.pulse with ageing := false } } else s

/-- Every admission timeout reached (R11).  Several reached at one pulse are taken in ascending index order, which R11
leaves open: DESIGN CHOICE (assumption 45). -/
def takeTimeouts (s : State) : State :=
  (s.contexts.positions (timeoutDue s)).foldl (fun t i => timeoutContext i t) s

/-- Every entry to DORMANT reached (R14). -/
def takeDormancy (s : State) : State :=
  (s.contexts.positions (dormancyDue s)).foldl (fun t i => dormantContext i t) s

/-- Every passage to STALE that is due (R145). -/
def takeStale (s : State) : State :=
  (s.peers.records.positions Peer.staleDue).foldl (fun t j => stalePeer j t) s

/-- Every passage to ABSENT that is due (R145).  Several due at one pulse are taken in ascending station order, which
R145 leaves open: DESIGN CHOICE (assumption 45). -/
def takeAbsent (s : State) : State :=
  (s.peers.records.positions Peer.absentDue).foldl (fun t j => absentPeer j t) s

/-- The void at the target pulse, if not taken yet; in OPERATING and HOLDING (R90). -/
def takeVoid (s : State) : State :=
  if s.pulse.batchVoid then
    let t := { s with pulse := { s.pulse with batchVoid := false } }
    if tracks t then voidAtTarget (now t) t else t
  else s

/-- The expiry of this pulse, if not taken yet; in OPERATING and HOLDING (R96). -/
def takeExpiry (s : State) : State :=
  if s.pulse.grantExpiry then
    let t := { s with pulse := { s.pulse with grantExpiry := false } }
    if tracks t then expireGrants (now t) t else t
  else s

/-- The deadline removal of this pulse, if not taken yet; in OPERATING and HOLDING (R101). -/
def takeDrop (s : State) : State :=
  if s.pulse.redoDrop then
    let t := { s with pulse := { s.pulse with redoDrop := false } }
    if tracks t then dropDeadlines (now t) t else t
  else s

/-- The hold-down expiry of this pulse, if not taken yet; in OPERATING (R129). -/
def takeHoldDown (s : State) : State :=
  if s.pulse.holdDown then
    let t := { s with pulse := { s.pulse with holdDown := false } }
    if t.align.opState == .operating then expireHoldDown (now t) t else t
  else s

/-- The update event of this pulse, if one is due and not taken yet: expired hold-downs leave first, then the three
steps (R125). -/
def takeUpdate (s : State) : State :=
  if s.pulse.update then
    let t := takeHoldDown { s with pulse := { s.pulse with update := false } }
    if edgeCounts t then updateEdge t else t
  else s

/-- One part of the pulse's work is taken. -/
def takeTask (s : State) : PulseTask → State
  | .entry => takeEntry s
  | .decide => takeDecide s
  | .start => takeStart s
  | .counts => takeCounts s
  | .timeouts => takeTimeouts s
  | .dormancy => takeDormancy s
  | .ageing => takeAgeing s
  | .stale => takeStale s
  | .absent => takeAbsent s
  | .batchVoid => takeVoid s
  | .grantExpiry => takeExpiry s
  | .redoDrop => takeDrop s
  | .holdDown => takeHoldDown s
  | .update => takeUpdate s
  | .announce f acrossPulse => whenHearing (hearAnnounce f acrossPulse) s
  | .ability f acrossPulse => whenHearing (hearAbility f acrossPulse) s

/-- The parts taken inside the pulse command itself when its order does not list them earlier. -/
def ownTasks : List PulseTask := [.entry, .decide, .start, .counts, .ageing]

/-- The parts that have rows of their own, in the order in which a later command finishes them. -/
def otherTasks : List PulseTask :=
  [.batchVoid, .grantExpiry, .redoDrop, .holdDown, .update, .timeouts, .dormancy, .stale, .absent]

/-- Parts of the pulse's work taken in order. -/
def takeTasks (l : List PulseTask) (s : State) : State := l.foldl takeTask s

/-- Every command outside the pulse, but for the frames received, first finishes what remains of the last pulse's work:
the pulse was taken before it (R89, R97).  The order among the parts that remain is one the manual allows (R102). -/
def finishPulse (s : State) : State :=
  if s.pulse.pending then { takeTasks (ownTasks ++ otherTasks) s with pulse := PulseWork.none } else s

/-! ## The two pulses -/

/-- The epoch count after a pulse, with the count before it kept for frames on the line and the serial of R98
set to 0. -/
def setEpoch (e : Option Epoch) (s : State) : State :=
  { s with
    align := { s.align with epoch := e, lastEpoch := s.align.epoch }
    tracking := { s.tracking with serial := 0 } }

/-- The parts of an EPOCH pulse's work that arise, by the operating state in which it is taken. -/
def pulseWork (faulted update : Bool) (op : OpState) : PulseWork :=
  { pending := true
    entry := faulted && op == .operating
    decide := op == .listening
    start := op == .operating
    counts := true
    ageing := true
    batchVoid := op != .listening
    grantExpiry := op != .listening
    redoDrop := op != .listening
    holdDown := op == .operating
    update := update }

/-- The state with the pulse work that arises. -/
def openPulse (w : PulseWork) (s : State) : State := { s with pulse := w }

/-- An EPOCH pulse without MARK in LISTENING, OPERATING or HOLDING, up to the blocks' parts. -/
def pulseArrives (interval : Nat) (s : State) : State :=
  let counted := setEpoch (s.align.epoch.map (· + 1)) s
  let judged := judgeBus (judgeWatch interval counted)
  openPulse (pulseWork (watchFaults interval counted.align) (updateReached judged) judged.align.opState)
    (listenPulse (countEdge judged))

/-- The parts of a MARK pulse's work that arise: no void, no expiry, no deadline removal, no run, no update
(R59, R90, R96, R101, R125). -/
def markWork (op : OpState) : PulseWork :=
  { PulseWork.none with pending := true, decide := op == .listening, ageing := true }

/-- An EPOCH pulse carrying MARK in LISTENING, OPERATING or HOLDING, up to the blocks' parts (R155).  The SCT's counts
come before the emptying of the tracking state (R24), and after the voids of an entry to HOLDING that the judgement
causes, an order R13 leaves open: DESIGN CHOICE (assumption 43).  The admission timeouts that these counts reach are
taken after the emptying with its bytes lost and RELEASED NOTICEs, an order R11 and R24 leave open, and so is the Peer
Table's ageing with its PEER_ABSENT, after the recovery, the entry to HOLDING or the exit from it, an order R65, R145
and R155 leave open: DESIGN CHOICE (assumption 46). -/
def markArrives (interval : Nat) (s : State) : State :=
  let p := s.align.epoch.getD 1023
  let zeroed := setEpoch (some 0) (testSlip s)
  let judged := judgeBus (judgeWatch interval zeroed)
  let entered := if watchFaults interval zeroed.align then holdIfOperating judged else judged
  let worked := listenPulse (markEffect p (countContexts entered))
  openPulse (markWork worked.align.opState) worked

end Sys2Proof.Machine
end

