-- ==== Sys2Proof/Machine/Link.lean ====
section
/-!
DEFINITION. The Sector Link Port: the inbound FIFO with READY, reception, the hand-over of the head record with the hold
for replies, refusals in UNCONFIGURED, and the link-loss watch (chapter 10, R151).
-/
namespace Sys2Proof.Machine

/-! ## The inbound FIFO and READY (R161) -/

/-- What the records held make of the READY line: deasserted while 4 or fewer entries are free. -/
def readyLevel (l : List Record) : Bool := decide (l.length + Config.readyReserve < Config.fifoDepth)

/-- The state with the FIFO's contents replaced and READY following them. -/
def setFifo (l : List Record) (s : State) : State := { s with link := { s.link with fifo := l, ready := readyLevel l } }

/-- The subject a record kind gives an event: its code (R175). -/
def kindSubject (r : Record) : Nat := (recordKind r).code.toNat

/-- A well-formed record joins the tail, or with all 64 entries occupied is discarded as an overrun (R161). -/
def joinFifo (r : Record) (s : State) : State :=
  if s.link.fifo.length < Config.fifoDepth then setFifo (s.link.fifo ++ [r]) s
  else setEvent .linkOverrun (kindSubject r) .none (advance .overruns 1 s)

/-! ## Malformed records (R159) -/

/-- A record that fails a test is discarded: the malformed-records counter and LINK_ERROR (R159). -/
def discardMalformed (kind : Nat) (code : Code) (s : State) : State :=
  setEvent .linkError kind code (advance .malformed 1 s)

/-- The same for a kind byte as received; with none received the subject is a free value (assumption 10). -/
def discardReceived (kind : Option Byte) (code : Code) (s : State) : State :=
  match kind with
  | some k => discardMalformed k.toNat code s
  | none =>
    discardMalformed (Config.unreceivedKind s.freeValues).toNat code { s with freeValues := s.freeValues + 1 }

/-! ## The link-loss watch (R165) -/

/-- An arrival that restarts the timer and ends a loss (R165). -/
def restartLink (s : State) : State := { s with link := { s.link with lost := false, timer := 0 } }

/-- The timer reaches 10 ms: in VALID the state becomes LOST and LINK_LOSS is set, and an OPERATING part enters
HOLDING (R165).  The run of idle bytes starts anew, so that 8 consecutive idle bytes end the loss (R171): what a run
under way becomes at that moment is a DESIGN CHOICE (assumption 32). -/
def loseLink (s : State) : State :=
  if s.link.lost then s
  else
    holdIfOperating
      (setEvent .linkLoss (epochField s.align.epoch) .none
        { s with link := { s.link with lost := true, timer := Config.linkLossTime, idleRun := 0 } })

/-- The receive line stands between records: whether a start byte may follow (R171), with no idle byte counted. -/
def lineStands (afterIdle : Bool) (s : State) : State :=
  { s with link := { s.link with afterIdle := afterIdle, idleRun := 0 } }

/-- A record with a correct check word has arrived to its end, which ends a loss (R165, R171), although the example of
chapter 11 shows the watch LOST after such an arrival: DEDUCED (assumption 44). -/
def recordArrived (s : State) : State := restartLink (lineStands true s)

/-- What a reception does (R159, R161, R165). -/
def takeReception (r : Reception) (s : State) : State :=
  match r with
  | .wellFormed rec => joinFifo rec (restartLink s)
  | .malformed kind code checkOk => discardReceived kind code (if checkOk then restartLink s else s)

/-- Idle bytes received one after another: the run grows, and at 8 or more it restarts the timer and ends a loss
(R165, R171). -/
def hearIdle (count : Nat) (s : State) : State :=
  let run := min Config.idleRun (s.link.idleRun + count)
  let heard := { s with link := { s.link with afterIdle := s.link.afterIdle || decide (0 < count), idleRun := run } }
  if 0 < count ∧ run = Config.idleRun then restartLink heard else heard

/-- Bytes of the receive line taken in order, at most as many as the fuel says: an idle byte, a record from a start byte
that follows an idle byte or a check word, or a byte that is discarded (R159, R171). -/
def takeLine : Nat → List Byte → State → State
  | 0, _, s => s
  | _ + 1, [], s => s
  | fuel + 1, b :: rest, s =>
    if b = idleByte then takeLine fuel rest (hearIdle 1 s)
    else if b = startByte ∧ s.link.afterIdle = true then
      takeLine fuel (afterRecord rest) (takeReception (receive rest) (lineStands (recordEnds rest) s))
    else takeLine fuel rest (lineStands false s)

/-! ## Hand-over (R162) -/

/-- The three kinds that are answered by one outbound record (R162). -/
def needsReply : Record → Bool
  | .config _ | .query _ | .statusReq _ => true
  | .realign | .attach _ _ _ _ _ | .release _ | .range _ _ | .channel _ _ _ | .dlData _ _ | .ulBuf _ _
  | .late _ _ | .feedback _ _ _ | .receipt _ | .floor _ | .clear _ => false

/-- The record is not handed on: it needs a reply and 4 or fewer outbound entries are free (R162). -/
def isHeld (r : Record) (s : State) : Bool := needsReply r && decide (s.link.outboundFree ≤ Config.replyReserve)

/-- A record command reaches its owner through the FIFO.  The record at the head leaves and its owner takes it.  Any
other record arrives now: an empty FIFO is passed straight through; a held record takes its place at the head; behind
another head it joins the tail and waits (R161, R162, R165, assumption 4). -/
def handOver (r : Record) (owner : State → State) (s : State) : State :=
  let t := finishPulse s
  if outOfRange r then discardMalformed (kindSubject r) .range (recordArrived t)
  else
    match t.link.fifo with
    | [] => if isHeld r t then joinFifo (clampRecord r) (recordArrived t) else owner (recordArrived t)
    | head :: rest =>
      if head = clampRecord r then (if isHeld r t then t else owner (setFifo rest t))
      else joinFifo (clampRecord r) (recordArrived t)

/-- A record refused in UNCONFIGURED: LINK_ERROR with the kind as subject and code NOT_READY (R151). -/
def refuseNotReady (r : Record) (s : State) : State := setEvent .linkError (kindSubject r) .notReady s

/-- The owner's work on a record, refused in UNCONFIGURED (R151). -/
def whenConfigured (r : Record) (owner : State → State) (s : State) : State :=
  if s.align.opState = .unconfigured then refuseNotReady r s else owner s

/-- The record at the head of the outbound queue has been sent whole and leaves the queue (R163). -/
def sendHead (s : State) : State :=
  match s.link.queue with
  | r :: rest => { s with link := { s.link with queue := rest, lastOut := some (.whole r) } }
  | [] => s

/-- An outbound record is handed to the transmitter (R163). -/
def reply (r : OutRecord) (s : State) : State := { s with link := s.link.enqueue r }

end Sys2Proof.Machine
end

