-- ==== Sys2Proof/Machine/Subscribers.lean ====
section
/-!
DEFINITION. The subscriber records: ATTACH, RELEASE, QUERY and the five reports (chapters 1 and 2).
-/
namespace Sys2Proof.Machine

/-- The outcome of a command that gives a next state. -/
abbrev Answer := Host.Outcome State Fault Refusal

/-! ## ATTACH (R8–R10) -/

/-- The number of contexts that are not FREE (R8). -/
def attachedCount (s : State) : Nat := s.contexts.count fun c => c.state != .free

/-- A refused ATTACH changes no context and sets ATTACH_REFUSED (R10). -/
def refuseAttach (i : Index) (code : Code) (s : State) : State := setEvent .attachRefused i.val code s

/-- The context of an accepted ATTACH, before ul_barred is derived (R9). -/
def Context.attached (c : Context) (ident cls weight rtd : Nat) : Context :=
  { c with state := .admitting, ident := ident, attachNo := c.attachNo + 1, cls := cls, weight := weight, rtd := rtd }

/-- The SCT decides an ATTACH by the checks in order (R8, R9, R10). -/
def takeAttach (i : Index) (ident cls weight rtd : Nat) (s : State) : State :=
  if s.align.opState = .unconfigured then refuseAttach i .notReady s
  else if (ctx s i).state ≠ .free then refuseAttach i .inUse s
  else if s.config.maxSubscribers ≤ attachedCount s then refuseAttach i .full s
  else deriveBar i (setCtx i ((ctx s i).attached ident cls weight rtd) s)

/-- ATTACH (R8). -/
def execAttach (i : Index) (ident cls weight rtd : Nat) (s : State) : Answer :=
  .next
    (handOver (.attach i ident cls weight rtd)
      (takeAttach i (ident % 2 ^ 24) (cls % 4) (clampWeight weight) (min rtd 1000)) s)

/-! ## RELEASE (R16, R17) -/

/-- A refused RELEASE changes no field and sets RELEASED with the refusal code (R16). -/
def refuseRelease (i : Index) (code : Code) (s : State) : State := setEvent .released i.val code s

/-- An accepted RELEASE: redo entries removed, backlogs 0, then CLOSING or FREE (R17). -/
def acceptRelease (i : Index) (s : State) : State :=
  let removed := releaseRedo i s
  let cleared := setCtx i { ctx removed i with dlBacklog := 0, ulBacklog := 0 } removed
  if 0 < (ctx cleared i).outstanding then setCtx i { ctx cleared i with state := .closing } cleared
  else releaseDone i cleared

/-- The SCT decides a RELEASE by the state of the named context (R16). -/
def takeRelease (i : Index) (s : State) : State :=
  if s.align.opState = .unconfigured then refuseRelease i .notReady s
  else
    match (ctx s i).state with
    | .free => refuseRelease i .notAttached s
    | .closing => refuseRelease i .closing s
    | .admitting | .active | .dormant => acceptRelease i s

/-- RELEASE (R16). -/
def execRelease (i : Index) (s : State) : Answer := .next (handOver (.release i) (takeRelease i) s)

/-! ## Reports (R27, R28) -/

/-- A report in LISTENING, OPERATING or HOLDING: applied to an attached context, stray for a FREE or CLOSING one
(R27, R28). -/
def applyReport (i : Index) (apply : State → State) (s : State) : State :=
  if (ctx s i).state.attached then apply s else advance .strayReports 1 s

/-- A report that resets the idle count of an ACTIVE context, and wakes a DORMANT one when `wakes` (R13, R15). -/
def Context.touched (c : Context) (wakes : Bool) : Context :=
  match c.state with
  | .active => { c with idleCount := 0 }
  | .dormant => if wakes then { c with state := .active, idleCount := 0 } else c
  | .free | .admitting | .closing => c

/-- DLDATA on an attached context: the bytes are added with saturation (R29). -/
def addDlData (i : Index) (n : Nat) (s : State) : State :=
  let c := ctx s i
  let written := setCtx i (Context.touched { c with dlBacklog := min Config.backlogMax (c.dlBacklog + n) } true) s
  if Config.backlogMax < c.dlBacklog + n then setEvent .dlDataSaturated i.val .dl written else written

/-- DLDATA (R29). -/
def execDlData (i : Index) (n : Nat) (s : State) : Answer :=
  .next
    (handOver (.dlData i n) (whenConfigured (.dlData i n) (applyReport i (addDlData i (n % 2 ^ 24)))) s)

/-- ULBUF on an attached context: the figure replaces ul_backlog, saturating (R30). -/
def writeUlBuf (i : Index) (n : Nat) (s : State) : State :=
  let c := ctx s i
  let written := setCtx i (Context.touched { c with ulBacklog := min Config.backlogMax n } (decide (0 < n))) s
  if Config.backlogMax < n then setEvent .dlDataSaturated i.val .ul written else written

/-- ULBUF (R30). -/
def execUlBuf (i : Index) (n : Nat) (s : State) : Answer :=
  .next
    (handOver (.ulBuf i n) (whenConfigured (.ulBuf i n) (applyReport i (writeUlBuf i (n % 2 ^ 24)))) s)

/-- A context after CHANNEL has written both grades (R12, R13, R15, R32). -/
def Context.regraded (c : Context) (dlGrade ulGrade : Nat) : Context :=
  let written := { c with dlGrade := dlGrade, ulGrade := ulGrade }
  match c.state with
  | .admitting => if 1 ≤ dlGrade then { written with state := .active, idleCount := 0, admitCount := 0 } else written
  | .active => { written with idleCount := 0 }
  | .free | .dormant | .closing => written

/-- CHANNEL on an attached context (R32). -/
def writeGrades (i : Index) (dlGrade ulGrade : Nat) (s : State) : State :=
  setCtx i ((ctx s i).regraded dlGrade ulGrade) s

/-- CHANNEL (R32). -/
def execChannel (i : Index) (dlGrade ulGrade : Nat) (s : State) : Answer :=
  .next
    (handOver (.channel i dlGrade ulGrade)
      (whenConfigured (.channel i dlGrade ulGrade) (applyReport i (writeGrades i dlGrade ulGrade))) s)

/-- RANGE on an attached context: rtd written, margin and strikes cleared, ul_barred derived (R35). -/
def writeRange (i : Index) (rtd : Nat) (s : State) : State :=
  deriveBar i (setCtx i { ctx s i with rtd := rtd, lateMargin := 0, strikes := 0 } s)

/-- RANGE (R35). -/
def execRange (i : Index) (rtd : Nat) (s : State) : Answer :=
  .next
    (handOver (.range i rtd) (whenConfigured (.range i rtd) (applyReport i (writeRange i (min rtd 1000)))) s)

/-- LATE on an attached context: the margin raised, a strike counted, ul_barred derived (R36). -/
def countLate (i : Index) (excess : Nat) (s : State) : State :=
  let c := ctx s i
  deriveBar i (setCtx i { c with lateMargin := max c.lateMargin excess, strikes := min 3 (c.strikes + 1) } s)

/-- LATE (R36). -/
def execLate (i : Index) (excess : Nat) (s : State) : Answer :=
  .next
    (handOver (.late i excess) (whenConfigured (.late i excess) (applyReport i (countLate i (min excess 255)))) s)

/-! ## QUERY (R26) -/

/-- The SCT answers with the live context and its redo_count (R26). -/
def takeQuery (i : Index) (s : State) : State := reply (.context i (ctx s i) (redoCount s i)) s

/-- QUERY (R26). -/
def execQuery (i : Index) (s : State) : Answer := .next (handOver (.query i) (takeQuery i) s)

end Sys2Proof.Machine
end

