-- ==== Sys2Proof/Machine/Answers.lean ====
section
/-!
DEFINITION. The baseband unit's answers to plans: RECEIPT and FEEDBACK (R88, R94).
-/
namespace Sys2Proof.Machine

/-- A receipt that confirms nothing: the stray-receipts counter, and the event where there is one (R88).  The event is
set before the counter's COUNTER_HALF, an order the tables leave open: DESIGN CHOICE (assumption 38). -/
def strayReceipt (k : EventKind) (e : Epoch) (code : Code) (s : State) : State :=
  advance .strayReceipts 1 (setEvent k e.val code s)

/-- The batch is committed with every OGT entry of it (R88). -/
def commitBatch (e : Epoch) (s : State) : State :=
  setOgt (s.tracking.ogt.map fun g => if g.tag.epoch = e then { g with committed := true } else g)
    (setBatch e .committed s)

/-- RECEIPT by the Batch Ring record found (R88). -/
def takeReceipt (e : Epoch) (s : State) : State :=
  if (batchOf s e).target = some e then
    match (batchOf s e).status with
    | .sent => commitBatch e s
    | .committed => advance .strayReceipts 1 s
    | .void => strayReceipt .lateReceipt e .none s
    | .missed => strayReceipt .strayReceipt e .missed s
    | .none => strayReceipt .strayReceipt e .unknown s
  else strayReceipt .strayReceipt e .unknown s

/-- RECEIPT (R88). -/
def execReceipt (e : Epoch) (s : State) : Answer :=
  .next (handOver (.receipt e) (whenConfigured (.receipt e) (takeReceipt e)) s)

/-- Feedback that matches no COMMITTED entry (R94).  The event is set before the counter's COUNTER_HALF: DESIGN CHOICE
(assumption 38). -/
def strayFeedback (e : Epoch) (code : Code) (s : State) : State :=
  advance .strayFeedback 1 (setEvent .strayFeedback e.val code s)

/-- FEEDBACK by the OGT entry found (R94). -/
def takeFeedback (e : Epoch) (planIndex : Nat) (fail : Bool) (s : State) : State :=
  match findGrant s { epoch := e, index := planIndex } with
  | some g =>
    if g.committed then
      (if fail then failEntry s g else dropOutstanding g.context (removeGrant g.tag s))
    else strayFeedback e .premature s
  | none => strayFeedback e .unknown s

/-- FEEDBACK (R94). -/
def execFeedback (e : Epoch) (planIndex : Nat) (fail : Bool) (s : State) : Answer :=
  .next
    (handOver (.feedback e planIndex fail)
      (whenConfigured (.feedback e planIndex fail) (takeFeedback e planIndex fail)) s)

end Sys2Proof.Machine
end

