-- ==== Sys2Proof/Machine/Control.lean ====
section
/-!
DEFINITION. Hard reset and the records of Alignment Control, the Allocation Engine and the Event Unit: CONFIG, REALIGN,
FLOOR, STATUS_REQ and CLEAR (R44, R149, R150, R158, R168, R170).
-/
namespace Sys2Proof.Machine

/-! ## Hard reset (R149) -/

/-- What the transmitter ends the line with at hard reset: a PLAN being sent is cut off, another record being sent is
sent whole (R164). -/
def resetOutput (l : LinkPort) : Option LinkOutput :=
  match l.queue.head? with
  | some (.plan p) => some (.cut p (cutCheck p))
  | some r => some (.whole r)
  | none => none

/-- HARD_RESET: every block at its reset values and the station number latched (R149).  The commands that wait and the
model's count of free values are no state of the part. -/
def execHardReset (station : Station) (s : State) : Answer :=
  .next
    { State.resetAt station with
      pending := s.pending
      freeValues := s.freeValues
      link := { LinkPort.reset with lastOut := resetOutput s.link } }

/-! ## CONFIG (R150) -/

/-- The values of Alignment Control on entry to LISTENING by CONFIG or REALIGN (R149). -/
def Alignment.listeningEntry (a : Alignment) : Alignment :=
  { Alignment.reset a.station with opState := .listening }

/-- An accepted CONFIG: every block holds the values in force and the part enters LISTENING (R107, R139, R143, R149,
R150, R166). -/
def acceptConfig (b : ConfigBody) (s : State) : State :=
  let p := clampConfig s.align.station b
  let events := configEvents b s.events
  reply (.configEcho true (inForce p events) (maskOf (clampedFields b (inForce p events))))
    { s with
      config := p
      events := events
      power := Power.reset
      peers := writeAdjacency s.align.station p.adjacency s.peers
      bus := { s.bus with watchStarted := false, idleSeen := false }
      align := s.align.listeningEntry }

/-- CONFIG at Alignment Control: accepted in UNCONFIGURED, LOCKED in the other states (R150). -/
def takeConfig (b : ConfigBody) (s : State) : State :=
  if s.align.opState = .unconfigured then acceptConfig b s
  else reply (.configEcho false (inForce s.config s.events) 0#32) s

/-- CONFIG (R150). -/
def execConfig (b : ConfigBody) (s : State) : Answer := .next (handOver (.config b) (takeConfig b) s)

/-! ## REALIGN (R158) -/

/-- The transmit side at REALIGN: an unsent frame is discarded without count; an attempt on the line completes and is
not retried (R140).  The idle watch starts again (R139). -/
def BusPort.realigned (b : BusPort) : BusPort :=
  match b.access with
  | .sending => { b with newer := none, noRetry := true, watchStarted := false, idleSeen := false }
  | .empty | .waiting | .deferring => { b.idle with watchStarted := false, idleSeen := false }

/-- Every record ABSENT with empty values, the excluded marks and the settle count cleared, adjacency kept
(R143, R148). -/
def PeerTable.realigned (t : PeerTable) : PeerTable :=
  { records := t.records.map fun p => { Peer.reset with adjacent := p.adjacent }, settle := 0 }

/-- An accepted REALIGN (R158).  The PLANs leave the queue before its NOTICEs: DESIGN CHOICE (assumption 37). -/
def acceptRealign (s : State) : State :=
  let emptied := emptyTracking (emptyCarry (discardRun (cutPlans s)))
  { emptied with
    power := Power.reset
    edge := Edge.reset
    peers := emptied.peers.realigned
    bus := emptied.bus.realigned
    align := emptied.align.listeningEntry }

/-- REALIGN (R158). -/
def execRealign (s : State) : Answer := .next (handOver .realign (whenConfigured .realign acceptRealign) s)

/-! ## FLOOR (R44) -/

/-- An accepted FLOOR (R44). -/
def setRequestedFloor (n : Nat) (s : State) : State := { s with engine := { s.engine with requestedFloor := n } }

/-- FLOOR (R44). -/
def execFloor (n : Nat) (s : State) : Answer :=
  .next (handOver (.floor n) (whenConfigured (.floor n) (setRequestedFloor (min n 3))) s)

/-! ## STATUS_REQ (R170) -/

/-- The sub-bands under hold-down, as a set. -/
def heldDownSet (l : List HoldDown) : SubBands := l.foldl (fun u h => withBand u h.band) 0#24

/-- One station's line of the Peer Table summary. -/
def Peer.summary (p : Peer) : PeerSummary :=
  { state := p.state, silence := p.silence, claim := p.claim, misaligned := p.misaligned,
    incompatible := p.incompatible, adjacent := p.adjacent }

/-- The part as it stands (R170). -/
def statusOf (s : State) : StatusReply :=
  { opState := s.align.opState, station := s.align.station, mode := s.align.mode, epoch := s.align.epoch,
    watch := s.align.watch, period := s.align.period, linkLost := s.link.lost, cutOff := s.bus.cutOff,
    flags := s.events.flags, counters := s.events.counters, remainder := s.events.remainder,
    pPrev := s.power.pPrev, allowance := s.power.allowance, powerFloor := s.power.powerFloor,
    requestedFloor := s.engine.requestedFloor, ownSet := s.edge.ownSet, demand := s.edge.demand,
    subBands := s.edge.subBands, heldDown := heldDownSet s.edge.holdDown,
    peers := s.peers.records.list.map Peer.summary, ogtEntries := s.tracking.ogt.length,
    redoEntries := s.tracking.redo.length }

/-- The Event Unit answers, and with the option zeroes every counter in the same act (R170). -/
def takeStatusReq (zero : Bool) (s : State) : State :=
  let answered := reply (.status (statusOf s)) s
  if zero then { answered with events := answered.events.zeroed } else answered

/-- STATUS_REQ (R170). -/
def execStatusReq (zero : Bool) (s : State) : Answer := .next (handOver (.statusReq zero) (takeStatusReq zero) s)

/-! ## CLEAR (R168) -/

/-- CLEAR (R168). -/
def execClear (mask : BitVec 32) (s : State) : Answer :=
  .next (handOver (.clear mask) (whenConfigured (.clear mask) (clearFlags mask)) s)

end Sys2Proof.Machine
end

