-- ==== Sys2Proof/Machine/LinkEvents.lean ====
section
/-!
DEFINITION. The events of the sector link: a record received, idle pattern, link loss, a record sent, and framing lost
(R159, R163, R165, R171).
-/
namespace Sys2Proof.Machine

/-- RECORD_RECEIVED: bytes of the receive line in order, with the records they hold (R159, R171). -/
def execRecordReceived (bytes : List Byte) (s : State) : Answer :=
  .next (takeLine bytes.length bytes (finishPulse s))

/-- IDLE_PATTERN_RECEIVED: a run of idle bytes; at 8 or more it restarts the timer and ends a loss (R165, R171). -/
def execIdlePatternReceived (count : Nat) (s : State) : Answer := .next (hearIdle count (finishPulse s))

/-- LINK_LOSS: the link-loss timer reaches 10 ms (R165). -/
def execLinkLoss (s : State) : Answer := .next (loseLink (finishPulse s))

/-- RECORD_SENT: the record being sent leaves the outbound queue (R163). -/
def execRecordSent (s : State) : Answer := .next (sendHead (finishPulse s))

/-- FRAMING_LOST: the record in reception fails test 1; the link-loss timer is not restarted (R159, R165, R171). -/
def execFramingLost (received : List Byte) (s : State) : Answer :=
  .next (discardReceived received.head? .check (lineStands false (finishPulse s)))

end Sys2Proof.Machine
end

