-- ==== Sys2Proof/Machine/PulseEvents.lean ====
section
/-!
DEFINITION. The EPOCH pulses, the loss of pulses, the rows that are parts of a pulse's work, and the completion of a
run (R11, R14, R79, R90, R96, R101, R125, R129, R145, R152, R153, R155).
-/
namespace Sys2Proof.Machine

/-- EPOCH_PULSE: a pulse without MARK; no action in UNCONFIGURED (R149, R152). -/
def execEpochPulse (interval : Nat) (order : List PulseTask) (s : State) : Answer :=
  .next
    (let t := finishPulse s
     if t.align.opState = .unconfigured then t
     else takeTasks (order ++ ownTasks) (pulseArrives interval t))

/-- MARK_PULSE: a pulse carrying MARK; no action in UNCONFIGURED (R149, R155). -/
def execMarkPulse (interval : Nat) (order : List PulseTask) (s : State) : Answer :=
  .next
    (let t := finishPulse s
     if t.align.opState = .unconfigured then t
     else takeTasks (order ++ ownTasks) (markArrives interval t))

/-- No pulse has come for 1.5 periods: in REGULAR or FAULTY the watch becomes LOST with EPOCH_LOSS, and an OPERATING
part enters HOLDING (R153). -/
def loseEpoch (s : State) : State :=
  match s.align.watch with
  | .regular | .faulty =>
    holdIfOperating (setEvent .epochLoss (epochField s.align.epoch) .none (setWatch .lost s))
  | .unset | .lost => s

/-- EPOCH_LOSS (R153). -/
def execEpochLoss (s : State) : Answer := .next (loseEpoch (finishPulse s))

/-- BATCH_VOID (R90). -/
def execBatchVoid (s : State) : Answer := .next (takeVoid s)

/-- GRANT_EXPIRY (R96). -/
def execGrantExpiry (s : State) : Answer := .next (takeExpiry s)

/-- REDO_DROP (R101). -/
def execRedoDrop (s : State) : Answer := .next (takeDrop s)

/-- ATTACH_TIMEOUT of one context (R11). -/
def execAttachTimeout (i : Index) (s : State) : Answer := .next (timeoutContext i s)

/-- GO_DORMANT of one context (R14). -/
def execGoDormant (i : Index) (s : State) : Answer := .next (dormantContext i s)

/-- UPDATE_EVENT (R125). -/
def execUpdateEvent (s : State) : Answer := .next (takeUpdate s)

/-- HOLD_DOWN_EXPIRY (R129). -/
def execHoldDownExpiry (s : State) : Answer := .next (takeHoldDown s)

/-- PEER_STALE of one station (R145). -/
def execPeerStale (j : Station) (s : State) : Answer := .next (stalePeer j s)

/-- PEER_ABSENT of one station (R145). -/
def execPeerAbsent (j : Station) (s : State) : Answer := .next (absentPeer j s)

/-- A run completes only while RUNNING (R63), and when the outbound queue has an entry for its PLAN (R163). -/
def finishRun (s : State) : State :=
  match s.engine.run with
  | some r => if planFits s then completeRun r s else s
  | none => s

/-- RUN_COMPLETION (R79). -/
def execRunCompletion (s : State) : Answer := .next (finishRun (finishPulse s))

end Sys2Proof.Machine
end

