-- ==== Sys2Proof/Machine/BusEvents.lean ====
section
/-!
DEFINITION. The events of the site bus: access to the line, the outcomes of an attempt, the cut-off, and the frames
received (R135–R138, R141, R142, R144, R146–R148).
-/
namespace Sys2Proof.Machine

/-! ## The deferral generator (R137) -/

/-- One step: the bit in position 0 is shifted out and position 15 takes the exclusive-or of positions 0, 2, 3, 5. -/
def generatorStep (r : BitVec 16) : BitVec 16 :=
  (r >>> 1) |||
    (if (r.getLsbD 0 != r.getLsbD 2) != (r.getLsbD 3 != r.getLsbD 5) then 0x8000#16 else 0#16)

/-- The register after some steps and the values shifted out, first taken as the most significant. -/
def drawBits : Nat → BitVec 16 → Nat → BitVec 16 × Nat
  | 0, r, acc => (r, acc)
  | n + 1, r, acc => drawBits n (generatorStep r) (2 * acc + (r.getLsbD 0).toNat)

/-- The steps of a draw: four at attempt number 1, five after it (R135, R137). -/
def drawSteps (attempt : Nat) : Nat := if attempt = 1 then 4 else 5

/-! ## Access to the line (R135) -/

/-- The attempt begins: the epoch field is written and the port is SENDING (R133, R135). -/
def BusPort.begins (b : BusPort) (epoch : Nat) : BusPort :=
  { b with access := .sending, units := 0, keepsUnits := false, airEpoch := epoch }

/-- The port defers for a number of units; with none the attempt begins at once (R135). -/
def BusPort.defers (b : BusPort) (epoch units : Nat) : BusPort :=
  if units = 0 then b.begins epoch else { b with access := .deferring, units := units, keepsUnits := false }

/-- 16 µs of idle line with a frame WAITING: the kept units, or a fresh draw (R135, R137). -/
def BusPort.idleLine (b : BusPort) (epoch : Nat) : BusPort :=
  if b.keepsUnits then b.defers epoch b.units
  else
    let drawn := drawBits (drawSteps b.attempt) b.generator 0
    BusPort.defers { b with generator := drawn.1 } epoch drawn.2

/-- An idle interval is seen; a frame WAITING defers (R135, R139). -/
def idleDetected (s : State) : State :=
  if seesLine s then
    let seen := lineSeenIdle s
    { seen with
      bus := if s.bus.access == .waiting then seen.bus.idleLine (epochField s.align.epoch) else seen.bus }
  else s

/-- BUS_IDLE_DETECTED (R135). -/
def execBusIdleDetected (s : State) : Answer := .next (idleDetected (finishPulse s))

/-- The deferral count reaches 0 on an idle line (R135). -/
def deferralEnds (s : State) : State :=
  if s.bus.access == .deferring then { s with bus := s.bus.begins (epochField s.align.epoch) } else s

/-- DEFERRAL_EXPIRED (R135). -/
def execDeferralExpired (s : State) : Answer := .next (deferralEnds (finishPulse s))

/-- The line becomes busy while units remain: back to WAITING, keeping them (R135). -/
def deferralBreaks (elapsed : Nat) (s : State) : State :=
  if s.bus.access == .deferring && decide (elapsed < s.bus.units) then
    { s with bus := { s.bus with access := .waiting, units := s.bus.units - elapsed, keepsUnits := true } }
  else s

/-- DEFERRAL_INTERRUPTED (R135). -/
def execDeferralInterrupted (elapsed : Nat) (s : State) : Answer := .next (deferralBreaks elapsed (finishPulse s))

/-! ## The outcomes of an attempt (R134, R136, R140) -/

/-- The transmit side after an attempt that is not retried: a newer frame is due, or none is (R134). -/
def BusPort.afterAttempt (b : BusPort) : BusPort :=
  match b.newer with
  | some f => b.waitWith f
  | none => b.idle

/-- The whole frame has been sent and read back unchanged (R136). -/
def frameGone (s : State) : State :=
  if s.bus.access == .sending then
    { s with
      bus :=
        BusPort.afterAttempt
          { s.bus with
            lastSent :=
              match s.bus.due with
              | some f => some (f, s.bus.airEpoch)
              | none => s.bus.lastSent } }
  else s

/-- FRAME_SENT (R136). -/
def execFrameSent (s : State) : Answer := .next (frameGone (finishPulse s))

/-- The own transmitter stops before its frame has ended: another station's frame in progress is not taken (R141).
Which events mark such a frame, and what ends it: DESIGN CHOICE (assumption 33). -/
def transmitterStops (s : State) : State := { s with bus := { s.bus with midFrame := true } }

/-- A mismatch has been read back: retry, replacement or abandonment (R134, R136, R140). -/
def collide (s : State) : State :=
  if s.bus.access == .sending then
    let counted := advance .collisions 1 (transmitterStops s)
    if s.bus.newer.isSome || s.bus.noRetry then { counted with bus := counted.bus.afterAttempt }
    else if s.bus.attempt < 4 then
      { counted with
        bus :=
          { counted.bus with access := .waiting, attempt := s.bus.attempt + 1, units := 0, keepsUnits := false } }
    else advance .unsentFrames 1 { counted with bus := counted.bus.idle }
  else s

/-- COLLISION (R136). -/
def execCollision (s : State) : Answer := .next (collide (finishPulse s))

/-- The cut-off (R138). -/
def cutOff (s : State) : State :=
  if s.bus.cutOff then s
  else
    let flagged := setEvent .busJabber s.align.station.val .none s
    let counted := if s.bus.due.isSome then advance .unsentFrames 1 flagged else flagged
    { counted with
      bus := { counted.bus.idle with cutOff := true, midFrame := s.align.opState != .unconfigured } }

/-- BUS_JABBER (R138). -/
def execBusJabber (s : State) : Answer := .next (cutOff (finishPulse s))

/-! ## Frames received (R141, R142, R144) -/

/-- ANNOUNCE_RECEIVED (R144).  A frame is taken between two parts of a pulse's work when parts remain (R111, R123).
One taken between the snapshot and the update of a pulse enters the update's blocked set and not the run's (R123), and a
sub-band yielded for it may carry grants of that run, although R124 says that none covers a yielded sub-band: DEDUCED
(assumption 48). -/
def execAnnounceReceived (f : AnnounceFrame) (acrossPulse : Bool) (s : State) : Answer :=
  .next (whenHearing (hearAnnounce f acrossPulse) s)

/-- ABILITY_RECEIVED (R144), between two parts of a pulse's work as ANNOUNCE_RECEIVED. -/
def execAbilityReceived (f : AbilityFrame) (acrossPulse : Bool) (s : State) : Answer :=
  .next (whenHearing (hearAbility f acrossPulse) s)

/-- A frame that fails a test of R141 is discarded: the bus CRC counter and BUS_CRC with the current epoch. -/
def discardFrame (s : State) : State :=
  setEvent .busCrc (epochField s.align.epoch) .none (advance .busCrc 1 s)

/-- The bytes of a frame are tested; one that passes is the ANNOUNCE or ABILITY it is (R141). -/
def hearBytes (bytes : List Byte) (partialByte : Bool) (s : State) : State :=
  match readFrame bytes partialByte with
  | some (.announce f) => hearAnnounce f false s
  | some (.ability f) => hearAbility f false s
  | none => discardFrame s

/-- BUS_CRC (R141), between two parts of a pulse's work as ANNOUNCE_RECEIVED. -/
def execBusCrc (bytes : List Byte) (partialByte : Bool) (s : State) : Answer :=
  .next (whenHearing (hearBytes bytes partialByte) s)

end Sys2Proof.Machine
end

