-- ==== Sys2Proof/Machine/Dispatch.lean ====
section
/-!
DEFINITION. One arm per command, each a direct call of its meaning.
-/
namespace Sys2Proof.Machine

open Sys2Proof

def exec (i : Instr) (s : State) : Host.Outcome State Fault Refusal :=
  match i with
  | .hardReset station => Sys2Proof.Machine.execHardReset station s
  | .config body => Sys2Proof.Machine.execConfig body s
  | .realign => Sys2Proof.Machine.execRealign s
  | .attach index ident cls weight rtd => Sys2Proof.Machine.execAttach index ident cls weight rtd s
  | .release index => Sys2Proof.Machine.execRelease index s
  | .dlData index bytes => Sys2Proof.Machine.execDlData index bytes s
  | .ulBuf index bytes => Sys2Proof.Machine.execUlBuf index bytes s
  | .channel index dlGrade ulGrade => Sys2Proof.Machine.execChannel index dlGrade ulGrade s
  | .range index rtd => Sys2Proof.Machine.execRange index rtd s
  | .late index excess => Sys2Proof.Machine.execLate index excess s
  | .feedback epoch planIndex fail => Sys2Proof.Machine.execFeedback epoch planIndex fail s
  | .receipt epoch => Sys2Proof.Machine.execReceipt epoch s
  | .floor requested => Sys2Proof.Machine.execFloor requested s
  | .query index => Sys2Proof.Machine.execQuery index s
  | .statusReq zero => Sys2Proof.Machine.execStatusReq zero s
  | .clear mask => Sys2Proof.Machine.execClear mask s
  | .recordReceived bytes => Sys2Proof.Machine.execRecordReceived bytes s
  | .idlePatternReceived count => Sys2Proof.Machine.execIdlePatternReceived count s
  | .linkLoss => Sys2Proof.Machine.execLinkLoss s
  | .recordSent => Sys2Proof.Machine.execRecordSent s
  | .epochPulse interval order => Sys2Proof.Machine.execEpochPulse interval order s
  | .epochLoss => Sys2Proof.Machine.execEpochLoss s
  | .markPulse interval order => Sys2Proof.Machine.execMarkPulse interval order s
  | .batchVoid => Sys2Proof.Machine.execBatchVoid s
  | .grantExpiry => Sys2Proof.Machine.execGrantExpiry s
  | .redoDrop => Sys2Proof.Machine.execRedoDrop s
  | .attachTimeout index => Sys2Proof.Machine.execAttachTimeout index s
  | .goDormant index => Sys2Proof.Machine.execGoDormant index s
  | .updateEvent => Sys2Proof.Machine.execUpdateEvent s
  | .holdDownExpiry => Sys2Proof.Machine.execHoldDownExpiry s
  | .peerStale station => Sys2Proof.Machine.execPeerStale station s
  | .peerAbsent station => Sys2Proof.Machine.execPeerAbsent station s
  | .runCompletion => Sys2Proof.Machine.execRunCompletion s
  | .busIdleDetected => Sys2Proof.Machine.execBusIdleDetected s
  | .deferralExpired => Sys2Proof.Machine.execDeferralExpired s
  | .deferralInterrupted elapsed => Sys2Proof.Machine.execDeferralInterrupted elapsed s
  | .frameSent => Sys2Proof.Machine.execFrameSent s
  | .collision => Sys2Proof.Machine.execCollision s
  | .busJabber => Sys2Proof.Machine.execBusJabber s
  | .announceReceived frame acrossPulse => Sys2Proof.Machine.execAnnounceReceived frame acrossPulse s
  | .abilityReceived frame acrossPulse => Sys2Proof.Machine.execAbilityReceived frame acrossPulse s
  | .busCrc bytes partialByte => Sys2Proof.Machine.execBusCrc bytes partialByte s
  | .framingLost received => Sys2Proof.Machine.execFramingLost received s

end Sys2Proof.Machine
end

