-- ==== Sys2Proof/WellFormed.lean ====
section
/-!
DEFINITION. Which commands the outside can send: every figure fits the field that carries it (R162, R173, R179), and
the bytes of a reception are what their row names (R159, R141, R171).
-/
namespace Sys2Proof

open Machine

/-- The figures of a record lie in the range its owner is given after reception (R5, R94, R160, R173, R180). -/
def Record.inRange : Record → Bool
  | .attach _ ident cls weight rtd =>
    decide (ident < 2 ^ 24) && decide (cls ≤ 3) && decide (1 ≤ weight) && decide (weight ≤ 15) &&
      decide (rtd ≤ 1000)
  | .range _ rtd => decide (rtd ≤ 1000)
  | .channel _ dlGrade ulGrade => decide (dlGrade ≤ 15) && decide (ulGrade ≤ 15)
  | .dlData _ bytes => decide (bytes < 2 ^ 24)
  | .ulBuf _ bytes => decide (bytes < 2 ^ 24)
  | .late _ excess => decide (excess ≤ 255)
  | .feedback _ planIndex _ => decide (planIndex ≤ 31)
  | .floor requested => decide (requested ≤ 3)
  | .clear mask => decide (mask &&& 0xE0000000#32 = 0#32)
  | .config _ | .realign | .release _ | .receipt _ | .query _ | .statusReq _ => true

/-- An entry of a pulse's order is a frame, not a part of the work. -/
def PulseTask.isFrame : PulseTask → Bool
  | .announce _ _ | .ability _ _ => true
  | .entry | .decide | .start | .counts | .timeouts | .dormancy | .ageing | .stale | .absent | .batchVoid
  | .grantExpiry | .redoDrop | .holdDown | .update => false

/-- The parts of a pulse's work that a pulse command lists, each at most once; frames may stand between them. -/
def orderDistinct : List PulseTask → Bool
  | [] => true
  | t :: rest => (t.isFrame || !rest.contains t) && orderDistinct rest

/-- A command the outside can send. -/
def Instr.wellFormed (i : Instr) : Bool :=
  match i.record? with
  | some r => r.inRange
  | none =>
    match i with
    | .recordReceived bytes => bytes.contains startByte
    | .framingLost received => decide (received.length < 65540)
    | .idlePatternReceived count => decide (Config.idleRun ≤ count)
    | .epochPulse _ order => orderDistinct order
    | .markPulse _ order => orderDistinct order
    | .deferralInterrupted elapsed => decide (elapsed ≤ 31)
    | .busCrc bytes partialByte => (readFrame bytes partialByte).isNone
    | .hardReset _ | .config _ | .realign | .attach _ _ _ _ _ | .release _ | .dlData _ _ | .ulBuf _ _
    | .channel _ _ _ | .range _ _ | .late _ _ | .feedback _ _ _ | .receipt _ | .floor _ | .query _
    | .statusReq _ | .clear _ | .linkLoss | .recordSent | .epochLoss | .batchVoid | .grantExpiry | .redoDrop
    | .attachTimeout _ | .goDormant _ | .updateEvent | .holdDownExpiry | .peerStale _ | .peerAbsent _
    | .runCompletion | .busIdleDetected | .deferralExpired | .frameSent | .collision | .busJabber
    | .announceReceived _ _ | .abilityReceived _ _ => true

end Sys2Proof
end

