-- ==== Sys2Proof/Safety.lean ====
section
/-!
DEFINITION. What counts as a safe state of the part, in the laws the manual says its blocks hold, and the words the
statements use.
-/
namespace Sys2Proof

/-! ## Kinds of commands and records -/

/-- The commands that do not first finish a pulse's work: HARD_RESET, the nine parts of that work, and the frames taken
from the line. -/
def Instr.insidePulse : Instr → Bool
  | .hardReset _ | .batchVoid | .grantExpiry | .redoDrop | .attachTimeout _ | .goDormant _ | .updateEvent
  | .holdDownExpiry | .peerStale _ | .peerAbsent _ | .announceReceived _ _ | .abilityReceived _ _ | .busCrc _ _ => true
  | .config _ | .realign | .attach _ _ _ _ _ | .release _ | .dlData _ _ | .ulBuf _ _ | .channel _ _ _
  | .range _ _ | .late _ _ | .feedback _ _ _ | .receipt _ | .floor _ | .query _ | .statusReq _ | .clear _
  | .recordReceived _ | .idlePatternReceived _ | .linkLoss | .recordSent | .epochPulse _ _ | .epochLoss
  | .markPulse _ _ | .runCompletion | .busIdleDetected | .deferralExpired | .deferralInterrupted _ | .frameSent
  | .collision | .busJabber | .framingLost _ => false

/-- The context a report names, for the five report kinds (R27). -/
def Record.reportIndex : Record → Option Index
  | .dlData i _ | .ulBuf i _ | .channel i _ _ | .range i _ | .late i _ => some i
  | .config _ | .realign | .attach _ _ _ _ _ | .release _ | .feedback _ _ _ | .receipt _ | .floor _ | .query _
  | .statusReq _ | .clear _ => none

/-- The record kinds that UNCONFIGURED refuses with LINK_ERROR: all but CONFIG, QUERY, STATUS_REQ, ATTACH and RELEASE
(R151). -/
def Record.refusedByLinkError : Record → Bool
  | .realign | .dlData _ _ | .ulBuf _ _ | .channel _ _ _ | .range _ _ | .late _ _ | .feedback _ _ _ | .receipt _
  | .floor _ | .clear _ => true
  | .config _ | .query _ | .statusReq _ | .attach _ _ _ _ _ | .release _ => false

/-- Every figure of a record fits its field on the link (R173), and test 4 of R159 passes. -/
def Record.fits : Record → Bool
  | .attach _ ident cls weight rtd =>
    decide (ident < 2 ^ 24) && decide (cls < 256) && decide (weight < 256) && decide (rtd < 65536)
  | .range _ rtd => decide (rtd < 65536)
  | .channel _ dlGrade ulGrade => decide (dlGrade ≤ 15) && decide (ulGrade ≤ 15)
  | .dlData _ bytes => decide (bytes < 2 ^ 24)
  | .ulBuf _ bytes => decide (bytes < 2 ^ 24)
  | .late _ excess => decide (excess < 65536)
  | .feedback _ planIndex _ => decide (planIndex ≤ 31)
  | .floor requested => decide (requested < 256)
  | .config _ | .realign | .release _ | .receipt _ | .query _ | .statusReq _ | .clear _ => true

end Sys2Proof

namespace Sys2Proof.Machine

open Sys2Proof

/-! ## Laws of a state -/

/-- ALERT is what the flags, enables, levels and threshold make of it (R167); READY is what the FIFO makes of it, and
the FIFO holds at most 64 records (R161). -/
def State.LinesFollow (s : State) : Prop :=
  s.events.alert = s.events.alertLevel ∧ s.link.ready = readyLevel s.link.fifo ∧
    s.link.fifo.length ≤ Config.fifoDepth

/-- The outbound queue holds at most 32 records (R163) and the Redo List at most 48 entries (R98). -/
def State.StoresBounded (s : State) : Prop :=
  s.link.queue.length ≤ Config.outboundDepth ∧ s.tracking.redo.length ≤ Config.redoDepth

/-- Every counter lies within 0–65,535 and the bytes-lost remainder within 0–63 (R169). -/
def State.CountersBounded (s : State) : Prop :=
  (∀ c, s.events.counters.get c ≤ Config.counterMax) ∧ s.events.remainder < Config.lostUnit

/-- Every backlog and average lies within 0–1,048,575 (R55). -/
def State.FiguresBounded (s : State) : Prop :=
  ∀ i, (ctx s i).dlBacklog ≤ Config.backlogMax ∧ (ctx s i).ulBacklog ≤ Config.backlogMax ∧
    (ctx s i).avgDl ≤ Config.backlogMax ∧ (ctx s i).avgUl ≤ Config.backlogMax

/-- In UNCONFIGURED every context is FREE, and the number of contexts that are not FREE does not exceed N_max (R8). -/
def State.AttachedBounded (s : State) : Prop :=
  (s.align.opState = .unconfigured → ∀ i, (ctx s i).state = .free) ∧ attachedCount s ≤ s.config.maxSubscribers

/-- The floor share does not exceed the budget (R108), and an allowance held lies between the two (R112). -/
def State.AllowanceBounded (s : State) : Prop :=
  s.config.floorShare ≤ s.config.budget ∧
    ∀ a, s.power.allowance = some a → s.config.floorShare ≤ a ∧ a ≤ s.config.budget

/-- A run is in flight only in OPERATING (R64, R85), and in UNCONFIGURED and LISTENING the Batch Ring, the OGT and the
Redo List are empty (R105). -/
def State.PlansOnlyWhenOperating (s : State) : Prop :=
  (s.engine.run.isSome = true → s.align.opState = .operating) ∧
    (tracks s = false →
      s.tracking.ring = Table.fill 16 BatchRecord.empty ∧ s.tracking.ogt = [] ∧ s.tracking.redo = [])

/-- The own reservation set is empty whenever edge coordination is off or the part is not in OPERATING (R128). -/
def State.EdgeOnlyWhenOperating (s : State) : Prop := edgeCounts s = false → s.edge.ownSet = 0#24

/-- The record at the part's own station number is ABSENT (R143). -/
def State.OwnPeerAbsent (s : State) : Prop := (s.peers.records.get s.align.station).state = .absent

/-- Every record of the Batch Ring that is SENT stands at its target's position (R86). -/
def State.RingPlaced (s : State) : Prop :=
  ∀ p, (s.tracking.ring.get p).status = .sent → ∃ e, (s.tracking.ring.get p).target = some e ∧ ringIndex e = p

/-- The snapshot of a run in flight names each context once (R60). -/
def State.SnapshotDistinct (s : State) : Prop :=
  ∀ r, s.engine.run = some r → (r.snapshot.contexts.map SnapContext.index).Nodup

/-- Outstanding of each context is the number of OGT entries that name it (R19), and no FREE or ADMITTING context has
one (R6, R11). -/
def State.OutstandingCounts (s : State) : Prop :=
  ∀ i,
    (ctx s i).outstanding = (s.tracking.ogt.filter fun g => g.context == i).length ∧
      ((ctx s i).state = .free ∨ (ctx s i).state = .admitting → (ctx s i).outstanding = 0)

/-- No tag appears twice among the OGT's tags, the tags its redo grants came from, and the Redo List's origin tags
(R93, R98). -/
def State.TagsDistinct (s : State) : Prop :=
  (s.tracking.redo.map RedoEntry.origin ++ (s.tracking.ogt.filterMap OgtEntry.origin).map RedoOrigin.tag ++
    s.tracking.ogt.map OgtEntry.tag).Nodup

/-- The redo entries of an order, in its order (R53). -/
def redoEntries (l : List OrderEntry) : List RedoEntry :=
  l.filterMap fun e =>
    match e with
    | .redo x => some x
    | .fresh _ => none

/-- The origin tags of the redo entries a run may place, downlink before uplink. -/
def Run.redoOrigins (r : Run) : List Tag := (redoEntries (r.dlOrder ++ r.ulOrder)).map RedoEntry.origin

/-- The run in flight has each redo entry once, and none of their origin tags stands in the OGT, as a tag or as an
origin a redo grant came from: no entry of the run has been delivered yet (R80, R91). -/
def State.RunRedoFresh (s : State) : Prop :=
  ∀ r, s.engine.run = some r →
    (r.redoOrigins ++ (s.tracking.ogt.filterMap OgtEntry.origin).map RedoOrigin.tag ++
      s.tracking.ogt.map OgtEntry.tag).Nodup

/-- The Redo List stands in deadline order, equal deadlines in creation order (R98, R100). -/
def State.RedoOrdered (s : State) : Prop := s.tracking.redo.Pairwise fun a b => redoBefore b a = false

/-- A safe state: every law above. -/
def State.Safe (s : State) : Prop :=
  s.LinesFollow ∧ s.StoresBounded ∧ s.CountersBounded ∧ s.FiguresBounded ∧ s.AttachedBounded ∧
    s.AllowanceBounded ∧ s.PlansOnlyWhenOperating ∧ s.EdgeOnlyWhenOperating ∧
    s.OwnPeerAbsent ∧ s.RingPlaced ∧ s.SnapshotDistinct ∧ s.OutstandingCounts ∧ s.TagsDistinct ∧
    s.RunRedoFresh ∧ s.RedoOrdered

/-! ## Words of the statements -/

/-- A record stands at the head of the FIFO and is handed on: no pulse work remains, and a record that needs a reply
finds more than 4 outbound entries free (R162). -/
def State.Hands (s : State) (r : Record) (rest : List Record) : Prop :=
  s.pulse.pending = false ∧ s.link.fifo = r :: rest ∧ isHeld r s = false

/-- An epoch lies at most 200 epochs from the current one, on either side. -/
def State.Near (s : State) (e : Epoch) : Prop := (e - now s + 200).val ≤ 400

/-- Every epoch by which the Redo List compares entries lies near the current one, in the list and in the OGT entries
that can return to it, and D is at most the 16 of R150 (R100). -/
def State.RedoEpochsNear (s : State) : Prop :=
  (∀ e ∈ s.tracking.redo, s.Near e.deadline ∧ s.Near e.order.epoch) ∧
    (∀ g ∈ s.tracking.ogt, ∀ o, g.origin = some o → s.Near o.deadline ∧ s.Near o.order.epoch) ∧
    s.config.redoDistance ≤ 16

/-- The frame that became due last: behind the attempt on the line, or the frame due itself (R134). -/
def BusPort.latest (b : BusPort) : Option BusFrame :=
  match b.newer with
  | some f => some f
  | none => b.due

/-- What an emptying of the tracking state reports, from `s` before its pulse to `t`: the bytes of the whole Redo List
are counted as lost, and each CLOSING context is FREE with RELEASED code DONE, which sets the flag and no other context
does so; with room for them in the outbound queue the NOTICEs are queued (R24, R104, R169). -/
def State.EmptyingReported (s t : State) : Prop :=
  let lost := s.events.remainder + (s.tracking.redo.map RedoEntry.bytes).sum
  let closing := (List.finRange 256).filter fun i => decide ((ctx s i).state = .closing)
  t.events.remainder = lost % 64 ∧
    t.events.counter .bytesLost = min 65535 (s.events.counter .bytesLost + lost / 64) ∧
    (t.events.flag .released = true ↔ s.events.flag .released = true ∨ closing ≠ []) ∧
    (∀ i ∈ closing, ctx t i = { Context.reset with attachNo := (ctx s i).attachNo }) ∧
    (s.align.watch ≠ .unset → s.events.enabled .released = true → s.link.queue.length + closing.length ≤ 16 →
      ∀ i ∈ closing,
        .notice { event := .released, subject := i.val, code := .done, epoch := t.align.epoch } ∈ t.link.queue)

/-! ### The entry to HOLDING -/

/-- The entry to HOLDING voids batch `e`: its record holds target `e` with status SENT, and the MISSED of a run in
flight does not take that record's place (R86, R103). -/
def State.voidedAtEntry (s : State) (e : Epoch) : Bool :=
  decide (s.tracking.ring.get (ringIndex e) = { target := some e, status := .sent }) &&
    s.engine.run.all fun r => ringIndex r.target != ringIndex e

/-- The target epochs of the batches that the entry to HOLDING voids. -/
def State.voidedTargets (s : State) : List Epoch := (List.finRange 1024).filter s.voidedAtEntry

/-- The OGT entries that leave with those batches. -/
def State.voidedGrants (s : State) : List OgtEntry := s.tracking.ogt.filter fun g => s.voidedAtEntry g.tag.epoch

/-- A context after the void of the grants `gone`, of which its own leave: outstanding falls by their number, a CLOSING
context that reaches 0 is FREE, and new data is refunded to an attached context (R18–R20, R23, R31, R90). -/
def Context.afterVoid (gone : List OgtEntry) (i : Index) (c : Context) : Context :=
  let mine := gone.filter fun g => g.context == i
  let refunded := fun d : Direction =>
    ((mine.filter fun g => g.origin.isNone && g.direction == d).map OgtEntry.bytes).sum
  if c.state = .closing ∧ mine ≠ [] ∧ c.outstanding ≤ mine.length then { Context.reset with attachNo := c.attachNo }
  else if c.state = .closing ∨ c.state = .free then { c with outstanding := c.outstanding - mine.length }
  else
    { c with
      outstanding := c.outstanding - mine.length
      dlBacklog := min 1048575 (c.dlBacklog + refunded .dl)
      ulBacklog := min 1048575 (c.ulBacklog + refunded .ul) }

/-- The Redo List after the void of the grants `gone` at epoch `n`: its entries are kept in their order, every new one
is a redo grant of `gone` under its origin with a deadline not past, and with room each such grant of a context that is
not CLOSING is there (R91, R103). -/
def State.RedoReturned (n : Epoch) (gone : List OgtEntry) (s : State) (redo : List RedoEntry) : Prop :=
  s.tracking.redo.Sublist redo ∧
    (∀ e ∈ redo, e ∈ s.tracking.redo ∨
      ∃ g ∈ gone, ∃ o, g.origin = some o ∧ (o.deadline - n).val < 513 ∧
        e =
          { context := g.context, direction := g.direction, width := g.width, height := g.height,
            grade := g.grade, bytes := g.bytes, redoNumber := g.redoNumber, origin := o.tag,
            deadline := o.deadline, order := o.order }) ∧
    (∀ g ∈ gone, ∀ o, g.origin = some o → (ctx s g.context).state ≠ .closing → (o.deadline - n).val < 513 →
      s.tracking.redo.length + gone.length ≤ 48 → ∃ e ∈ redo, e.origin = o.tag)

/-- What an entry to HOLDING in epoch `n` makes of the tracking state: MISSED for the target of a run in flight, VOID
for each other record that was SENT and every other record kept; the entries of the void batches gone, the others kept,
COMMITTED ones among them; and the Redo List kept, with the redo grants that return (R23, R64, R86, R103). -/
def State.TrackingVoided (n : Epoch) (s : State) (k : Tracking) : Prop :=
  (∀ r, s.engine.run = some r → k.ring.get (ringIndex r.target) = { target := some r.target, status := .missed }) ∧
    (∀ p, (∀ r, s.engine.run = some r → ringIndex r.target ≠ p) →
      k.ring.get p =
        if (s.tracking.ring.get p).status = .sent then { s.tracking.ring.get p with status := .void }
        else s.tracking.ring.get p) ∧
    k.ogt = s.tracking.ogt.filter (fun g => !s.voidedAtEntry g.tag.epoch) ∧
    s.RedoReturned n s.voidedGrants k.redo

/-- What an entry to HOLDING reports, from `s` before its command to `t`: PLAN_MISSED with the target of a run in flight
and the plans-missed counter up by 1, and for each void batch BATCH_VOID with its target and the batches-voided counter
up by 1.  With room the NOTICE of PLAN_MISSED is queued; with no other event enabled those of BATCH_VOID are all that
is, one for each batch, in ascending order of targets that lie within half the epochs of one (R64, R103, R166). -/
def State.EntryReported (s t : State) : Prop :=
  (t.events.flag .planMissed = true ↔ s.events.flag .planMissed = true ∨ s.engine.run.isSome = true) ∧
    t.events.counter .plansMissed =
      (if s.engine.run.isSome then min 65535 (s.events.counter .plansMissed + 1)
      else s.events.counter .plansMissed) ∧
    (∀ r, s.engine.run = some r → s.events.enabled .planMissed = true → s.link.queue.length ≤ 20 →
      .notice { event := .planMissed, subject := r.target.val, code := .none, epoch := t.align.epoch } ∈
        t.link.queue) ∧
    (t.events.flag .batchVoid = true ↔ s.events.flag .batchVoid = true ∨ s.voidedTargets ≠ []) ∧
    t.events.counter .batchesVoided =
      (if s.voidedTargets = [] then s.events.counter .batchesVoided
      else min 65535 (s.events.counter .batchesVoided + s.voidedTargets.length)) ∧
    ((∀ k, s.events.enabled k = true ↔ k = .batchVoid) →
      s.link.queue.length + s.voidedTargets.length ≤ 24 →
        ∃ l : List Epoch,
          l.Perm s.voidedTargets ∧
            ((∃ m : Epoch, ∀ e ∈ l, (e - m).val ≤ 511) → l.Pairwise fun a b => 513 ≤ (a - b).val) ∧
            t.link.queue =
              s.link.queue.filter (fun r => !r.isPlan) ++
                l.map fun e =>
                  .notice { event := .batchVoid, subject := e.val, code := .none, epoch := t.align.epoch })

/-- A context as the SCT's counts of a pulse leave it, where `redo` is the Redo List they find (R11, R13). -/
def Context.counted (i : Index) (redo : List RedoEntry) (c : Context) : Context :=
  let quiet := c.dlBacklog = 0 ∧ c.ulBacklog = 0 ∧ c.outstanding = 0 ∧ ∀ e ∈ redo, e.context ≠ i
  if c.state = .admitting then { c with admitCount := c.admitCount + 1 }
  else if c.state = .active then { c with idleCount := if quiet then c.idleCount + 1 else 0 }
  else c

/-- The line after a record with a correct check word has arrived (R165, R171). -/
def State.arrived (s : State) : State :=
  { s with link := { s.link with lost := false, timer := 0, afterIdle := true, idleRun := 0 } }

/-- The watch and the period after a pulse, row by row of the table of R153. -/
def watchAfter (a : Alignment) (interval : Nat) : WatchState × Option Period :=
  match a.watch with
  | .unset =>
    if a.timing then
      match measuredPeriod interval with
      | some p => (.regular, some p)
      | none => (.unset, a.period)
    else (.unset, a.period)
  | .regular | .faulty => (if intervalRegular a interval then .regular else .faulty, a.period)
  | .lost => (.faulty, a.period)

/-- A pulse after this interval sets EPOCH_FAULT (R153). -/
def Alignment.Faults (a : Alignment) (interval : Nat) : Prop :=
  a.watch = .unset ∧ a.timing = true ∧ measuredPeriod interval = none ∨
    (a.watch = .regular ∨ a.watch = .faulty) ∧ intervalRegular a interval = false

/-- A placed grant covers a tile (R66). -/
def Placed.Covers (p : Placed) (band slot : Nat) : Prop :=
  p.firstBand ≤ band ∧ band < p.firstBand + p.width ∧ p.firstSlot ≤ slot ∧ slot < p.firstSlot + p.height

/-- Two placed grants share no tile. -/
def Placed.Apart (a b : Placed) : Prop := ∀ band slot, ¬(a.Covers band slot ∧ b.Covers band slot)

/-- Step `n` of R69 tries the range of `w` sub-bands from `f` for a grade: for an edge grade the ranges inside the own
set and outside the blocked set, then those outside the blocked set; for another grade those that touch neither, then
from the quiet grade on those that do not touch the own set, then those that do not touch the blocked set. -/
def Snapshot.Tries (sn : Snapshot) (grade w f n : Nat) : Prop :=
  let inside := fun u : SubBands => ∀ i, i < w → u.getLsbD (f + i) = true
  let clear := fun u : SubBands => ∀ i, i < w → u.getLsbD (f + i) = false
  if 1 ≤ grade ∧ grade ≤ sn.edgeGrade then
    (n = 1 ∧ inside sn.ownSet ∧ clear sn.blockedSet) ∨ (n = 2 ∧ clear sn.blockedSet)
  else
    (n = 1 ∧ clear sn.ownSet ∧ clear sn.blockedSet) ∨ (n = 2 ∧ sn.quietGrade ≤ grade ∧ clear sn.ownSet) ∨
      (n = 3 ∧ clear sn.blockedSet)

/-- A range lies within the site's sub-bands, its 8 × w tiles are FREE, and its power does not exceed the remaining
allowance (R70). -/
def Snapshot.RangeFits (sn : Snapshot) (pr : Progress) (grade w f : Nat) : Prop :=
  f + w ≤ sn.bands.bands ∧ (∀ i k, i < w → k < 8 → tileAt pr.grid (f + i) k = .free) ∧
    8 * w * (gradeRow grade).cost ≤ pr.remaining

/-- A range qualifies: it fits, and some step tries it (R69, R70). -/
def Snapshot.RangeQualifies (sn : Snapshot) (pr : Progress) (grade w f : Nat) : Prop :=
  sn.RangeFits pr grade w f ∧ ∃ n, sn.Tries grade w f n

/-- The first range of a width that qualifies, in the order of R69: by step, then ascending for an edge grade and
descending for another. -/
def Snapshot.RangeFirst (sn : Snapshot) (pr : Progress) (grade w f : Nat) : Prop :=
  sn.RangeFits pr grade w f ∧
    ∃ n, sn.Tries grade w f n ∧
      ∀ f' n', sn.RangeFits pr grade w f' → sn.Tries grade w f' n' →
        n < n' ∨ n = n' ∧ (if 1 ≤ grade ∧ grade ≤ sn.edgeGrade then f ≤ f' else f' ≤ f)

/-- The shadow slots behind a grant of height `h` from slot `x`: k7 where it ends at slot 7, and k otherwise (R74). -/
def Snapshot.shadowBehind (sn : Snapshot) (rtd margin h x : Nat) : Nat :=
  if x + h = 8 then tailShadowCount sn.advanceLimit sn.tailGuard sn.slotTime rtd margin
  else shadowCount sn.advanceLimit sn.slotTime rtd margin

/-- A position qualifies: its tiles and its shadow tiles of slot 7 or below are FREE (R75). -/
def Snapshot.PositionQualifies (sn : Snapshot) (pr : Progress) (rtd margin w h f x : Nat) : Prop :=
  f + w ≤ sn.bands.bands ∧ x + h ≤ 8 ∧
    (∀ i j, i < w → j < h → tileAt pr.grid (f + i) (x + j) = .free) ∧
    (∀ i j, i < w → j < sn.shadowBehind rtd margin h x → x + h + j < 8 →
      tileAt pr.grid (f + i) (x + h + j) = .free)

/-- The first position of a shape that qualifies, in the order of R75: first slots downward for a subscriber with k of 1
or more and upward otherwise, sub-bands upward within each. -/
def Snapshot.PositionFirst (sn : Snapshot) (pr : Progress) (rtd margin w h f x : Nat) : Prop :=
  sn.PositionQualifies pr rtd margin w h f x ∧
    ∀ f' x', sn.PositionQualifies pr rtd margin w h f' x' →
      (if 1 ≤ shadowCount sn.advanceLimit sn.slotTime rtd margin then x' < x else x < x') ∨ x = x' ∧ f ≤ f'

end Sys2Proof.Machine
end

