-- ==== Sys2Proof/Certificates/Slice0/Obligations.lean ====
section
/-!
DEFINITION. The statements about the part: its queue of commands, each command's effect with its frame, the formats, and
the laws every step keeps.
-/
open Sys2Proof Sys2Proof.Machine

/-! ## The queue of commands -/

/-- A step takes the command at the front of the queue and runs it on the state with the queue's rest
(95_what_each_step_holds.md: each step is whole and indivisible; log 28). -/
def Obligations.StepRunsFrontCommand : Prop :=
  ∀ (c : Instr) (rest : List Instr) (s : State), s.pending = c :: rest → step s = exec c { s with pending := rest }

/-- The model's choice of log 3: a command outside a pulse's work first finishes what remains of it, the parts in one
order, after which none is due; a frame taken from the line finishes nothing and leaves the parts due (R111, R123). -/
def Obligations.LaterCommandFinishesPulse : Prop :=
  (∀ (c : Instr) (s : State), c.insidePulse = false → exec c s = exec c (finishPulse s)) ∧
  (∀ s : State,
    (s.pulse.pending = false → finishPulse s = s) ∧
    (s.pulse.pending = true →
      let t := finishPulse s
      t =
        { [PulseTask.entry, .decide, .start, .counts, .ageing, .batchVoid, .grantExpiry, .redoDrop, .holdDown, .update,
            .timeouts, .dormancy, .stale, .absent].foldl takeTask s with pulse := PulseWork.none } ∧
      (∀ i, ¬((ctx t i).state = .admitting ∧ t.config.admitTimeout ≤ (ctx t i).admitCount)) ∧
      (∀ i, ¬((ctx t i).state = .active ∧ t.config.idleTimer ≤ (ctx t i).idleCount)) ∧
      (∀ j, ¬((t.peers.records.get j).state = .present ∧ 4 ≤ (t.peers.records.get j).silence)) ∧
      (∀ j, ¬((t.peers.records.get j).state ≠ .absent ∧ 64 ≤ (t.peers.records.get j).silence)))) ∧
  (∀ (c : Instr) (s t : State), exec c s = .next t →
    ((∃ f across, c = .announceReceived f across ∨ (∃ g, c = .abilityReceived g across)) ∨
      ∃ bytes partialByte, c = .busCrc bytes partialByte) →
    t.pulse = s.pulse)

/-! ## The inbound FIFO (R161, R162) -/

/-- A record command meets the inbound FIFO (R161, R162, R165; where a command hands on and where it arrives is the
model's choice of log 4). An arrival ends a loss. On an empty FIFO it acts as that record alone in the FIFO; behind
another head it joins the tail, or with all 64 entries occupied is an overrun. CONFIG, QUERY and STATUS_REQ with 4 or
fewer outbound entries free stay at the head, and take their place there. A CHANNEL grade above 15 or a FEEDBACK
index above 31 given as a command is malformed with code RANGE (log 24). That the overruns and malformed counters come
before their events is the model's choice of log 38, and what an arrival leaves of the line's marks that of log 32. -/
def Obligations.RecordCommandMeetsFifo : Prop :=
  ∀ (c : Instr) (r : Record) (s : State), c.record? = some r → s.pulse.pending = false →
    let wants := recordKind r = .config ∨ recordKind r = .query ∨ recordKind r = .statusReq
    let full := 32 - s.link.queue.length ≤ 4
    let joined :=
      { s.arrived with
        link :=
          { s.arrived.link with
            fifo := s.link.fifo ++ [clampRecord r]
            ready := decide (s.link.fifo.length + 1 < 60) } }
    (((∃ i d u, r = .channel i d u ∧ (15 < d ∨ 15 < u)) ∨ (∃ e p f, r = .feedback e p f ∧ 31 < p)) →
      exec c s = .next (setEvent .linkError (recordKind r).code.toNat .range (advance .malformed 1 s.arrived))) ∧
    (outOfRange r = false →
      (s.link.fifo = [] → s.link.ready = true → ¬(wants ∧ full) →
        exec c s = exec c (setFifo [clampRecord r] s.arrived)) ∧
      (s.link.fifo = [] → wants → full → exec c s = .next joined) ∧
      (∀ rest, s.link.fifo = clampRecord r :: rest → wants → full → exec c s = .next s) ∧
      (∀ head rest, s.link.fifo = head :: rest → head ≠ clampRecord r →
        (s.link.fifo.length < 64 → exec c s = .next joined) ∧
        (64 ≤ s.link.fifo.length →
          exec c s = .next (setEvent .linkOverrun (recordKind r).code.toNat .none (advance .overruns 1 s.arrived)))))

/-- In UNCONFIGURED every record but CONFIG, QUERY and STATUS_REQ leaves the FIFO and is refused with NOT_READY:
ATTACH by ATTACH_REFUSED, RELEASE by RELEASED, the others by LINK_ERROR with the kind; nothing else changes
(R151). -/
def Obligations.UnconfiguredRefusesRecords : Prop :=
  ∀ (c : Instr) (r : Record) (rest : List Record) (s : State),
    c.record? = some r → s.Hands (clampRecord r) rest → outOfRange r = false → s.align.opState = .unconfigured →
    (r.refusedByLinkError = true →
      exec c s = .next (setEvent .linkError (recordKind r).code.toNat .notReady (setFifo rest s))) ∧
    (∀ i d k w t, r = .attach i d k w t →
      exec c s = .next (setEvent .attachRefused i.val .notReady (setFifo rest s))) ∧
    (∀ i, r = .release i → exec c s = .next (setEvent .released i.val .notReady (setFifo rest s)))

/-! ## The Event Unit (R166–R170) -/

/-- Setting an event sets its flag and no other, judges ALERT, and queues a NOTICE exactly when the event is enabled
and more than 8 outbound entries are free (R163, R166, R167). A counter advances by the whole number and holds at
65,535, and COUNTER_HALF is set, with the counter's number as subject, exactly on passing 32,768; bytes lost advance
their counter by each whole 64 and leave the rest in the remainder (R169). Nothing else changes. -/
def Obligations.SettingEventsAndAdvancingCounters : Prop :=
  (∀ (k : EventKind) (subject : Nat) (code : Code) (s : State),
    let t := setEvent k subject code s
    (∀ j, t.events.flag j = (s.events.flag j || decide (j = k))) ∧
    t.events.alert = t.events.alertLevel ∧
    t.events = { s.events with flags := t.events.flags, alert := t.events.alert } ∧
    t.link =
      (if s.events.enabled k = true ∧ 8 < 32 - s.link.queue.length then
        { s.link with
          queue :=
            s.link.queue ++ [.notice { event := k, subject := subject, code := code, epoch := s.align.epoch }] }
      else s.link) ∧
    t = { s with events := t.events, link := t.link }) ∧
  (∀ (c : Counter) (n : Nat) (s : State),
    let t := advance c n s
    let counted :=
      { s with
        events :=
          { s.events with counters := s.events.counters.set c.num (min 65535 (s.events.counter c + n)) } }
    t =
      (if s.events.counter c < 32768 ∧ 32768 ≤ s.events.counter c + n then
        setEvent .counterHalf c.num.val .none counted
      else counted) ∧
    (∀ d, t.events.counter d = if d = c then min 65535 (s.events.counter c + n) else s.events.counter d) ∧
    (∀ j, t.events.flag j =
      (s.events.flag j ||
        (decide (j = .counterHalf) && decide (s.events.counter c < 32768) &&
          decide (32768 ≤ s.events.counter c + n)))) ∧
    t.events =
      { s.events with counters := t.events.counters, flags := t.events.flags, alert := t.events.alert } ∧
    t = { s with events := t.events, link := t.link }) ∧
  (∀ (n : Nat) (s : State),
    let t := loseBytes n s
    t =
      advance .bytesLost ((s.events.remainder + n) / 64)
        { s with events := { s.events with remainder := (s.events.remainder + n) % 64 } } ∧
    t.events.remainder = (s.events.remainder + n) % 64 ∧
    (∀ d, t.events.counter d =
      if d = .bytesLost then min 65535 (s.events.counter d + (s.events.remainder + n) / 64)
      else s.events.counter d) ∧
    t = { s with events := t.events, link := t.link })

/-- CLEAR, outside UNCONFIGURED, clears each listed flag whose cause does not persist and no other, and ALERT is
judged after the list; nothing else changes. The causes that persist are those of R166: the watch LOST for EPOCH_LOSS
and FAULTY for EPOCH_FAULT, the link LOST for LINK_LOSS, the cut-off state for BUS_JABBER, a last judged epoch without
idle line for BUS_STUCK, a power floor above 0 for SHORTAGE, and a counter at 32,768 or more for
COUNTER_HALF. That BUS_STUCK's cause stands from one judgement to the next is the model's reading of R139 (log 20). In
UNCONFIGURED it is refused with NOT_READY (R151, R166, R168). -/
def Obligations.ClearClearsFlags : Prop :=
  ∀ (mask : BitVec 32) (rest : List Record) (s : State), s.Hands (clampRecord (.clear mask)) rest →
    let persists := fun k : EventKind =>
      (decide (k = .epochLoss) && decide (s.align.watch = .lost)) ||
      (decide (k = .epochFault) && decide (s.align.watch = .faulty)) ||
      (decide (k = .linkLoss) && s.link.lost) || (decide (k = .busJabber) && s.bus.cutOff) ||
      (decide (k = .busStuck) && s.bus.stuck) || (decide (k = .shortage) && decide (0 < s.power.powerFloor)) ||
      (decide (k = .counterHalf) && (List.finRange 14).any fun c => decide (32768 ≤ s.events.counters.get c))
    (s.align.opState = .unconfigured →
      exec (.clear mask) s = .next (setEvent .linkError 15 .notReady (setFifo rest s))) ∧
    (s.align.opState ≠ .unconfigured →
      ∃ e : EventUnit,
        exec (.clear mask) s = .next { setFifo rest s with events := e } ∧
        (∀ k, e.flag k = (s.events.flag k && !(mask.getLsbD k.num && !persists k))) ∧
        e.alert = e.alertLevel ∧ e = { s.events with flags := e.flags, alert := e.alert })

/-- QUERY is answered with the live context and its redo_count in every operating state, and STATUS_REQ with the
part as it stands, item by item; the option zeroes every counter and the remainder in the same act; nothing else
changes (R26, R170). -/
def Obligations.RepliesToQueryAndStatusRequest : Prop :=
  (∀ (i : Index) (rest : List Record) (s : State), s.Hands (.query i) rest →
    exec (.query i) s =
      .next
        (reply (.context i (ctx s i) ((s.tracking.redo.filter fun e => e.context == i).length)) (setFifo rest s))) ∧
  (∀ (zero : Bool) (rest : List Record) (s : State), s.Hands (.statusReq zero) rest →
    ∃ r : StatusReply,
      exec (.statusReq zero) s =
        .next
          (let t := reply (.status r) (setFifo rest s)
           if zero then { t with events := { s.events with counters := Table.fill 14 0, remainder := 0 } } else t) ∧
      r.opState = s.align.opState ∧ r.station = s.align.station ∧ r.mode = s.align.mode ∧
      r.epoch = s.align.epoch ∧ r.watch = s.align.watch ∧ r.period = s.align.period ∧ r.linkLost = s.link.lost ∧
      r.cutOff = s.bus.cutOff ∧ r.flags = s.events.flags ∧ r.counters = s.events.counters ∧
      r.remainder = s.events.remainder ∧ r.pPrev = s.power.pPrev ∧ r.allowance = s.power.allowance ∧
      r.powerFloor = s.power.powerFloor ∧ r.requestedFloor = s.engine.requestedFloor ∧
      r.ownSet = s.edge.ownSet ∧ r.demand = s.edge.demand ∧ r.subBands = s.edge.subBands ∧
      (∀ b, b < 24 → r.heldDown.getLsbD b = s.edge.holdDown.any fun h => h.band == b) ∧
      (∀ j : Station,
        r.peers[j.val]? =
          some
            (let p := s.peers.records.get j
             { state := p.state, silence := p.silence, claim := p.claim, misaligned := p.misaligned,
               incompatible := p.excluded || p.mismatch, adjacent := p.adjacent })) ∧
      r.ogtEntries = s.tracking.ogt.length ∧ r.redoEntries = s.tracking.redo.length)

/-! ## Subscriber contexts (chapters 1 and 2) -/

/-- k is the least number of slots that covers the lateness L, k7 the least that covers what the tail guard leaves
of it, and k7 never exceeds k (R37). ul_barred becomes yes exactly when k exceeds max_shadow or strikes are 3 under
BAR; UL_BARRED is set on passing from no to yes, with code RANGE when the range test holds; nothing else changes
(R38). Setting the period derives ul_barred again for every context that is not FREE, UL_BARRED being set for each that
passes to yes in ascending index order and nothing else changing; a pulse that finds the watch UNSET and timing, with an
interval within tolerance of a period, sets that period and so derives it with the new T_slot (R38, R153). -/
def Obligations.LatenessAndUplinkBar : Prop :=
  (∀ (advanceLimit guardTime slot rtd margin : Nat), 0 < slot →
    let late := rtd + margin - advanceLimit
    let k := shadowCount advanceLimit slot rtd margin
    let k7 := tailShadowCount advanceLimit guardTime slot rtd margin
    late ≤ k * slot ∧ (∀ n, late ≤ n * slot → k ≤ n) ∧ late - guardTime ≤ k7 * slot ∧
      (∀ n, late - guardTime ≤ n * slot → k7 ≤ n) ∧ k7 ≤ k) ∧
  (∀ (i : Index) (s : State),
    let c := ctx s i
    let lateBy := c.rtd + c.lateMargin - s.config.advanceLimit
    let far := decide (s.config.maxShadow < (lateBy + slotTime s - 1) / slotTime s)
    let late := decide (c.strikes = 3) && !s.config.keepPolicy
    deriveBar i s =
      (let t := { s with contexts := s.contexts.set i { c with ulBarred := far || late } }
       if (far || late) && !c.ulBarred then setEvent .ulBarred i.val (if far then .range else .lateness) t else t)) ∧
  (let far := fun (s : State) (slot : Nat) (i : Index) =>
     decide
       (s.config.maxShadow <
         ((ctx s i).rtd + (ctx s i).lateMargin - s.config.advanceLimit + slot - 1) / slot)
   let bars := fun (s : State) (slot : Nat) (i : Index) =>
     far s slot i || (decide ((ctx s i).strikes = 3) && !s.config.keepPolicy)
   let turned := fun (s : State) (slot : Nat) =>
     (List.finRange 256).filter fun i =>
       decide ((ctx s i).state ≠ .free) && bars s slot i && !(ctx s i).ulBarred
   (∀ s : State,
     ∃ contexts : Table Context 256,
       deriveAllBars s =
         { (turned s (slotTime s)).foldl
             (fun u i => setEvent .ulBarred i.val (if far s (slotTime s) i then .range else .lateness) u) s with
           contexts := contexts } ∧
       ∀ i, contexts.get i =
         if (ctx s i).state = .free then ctx s i else { ctx s i with ulBarred := bars s (slotTime s) i }) ∧
   (∀ (c : Instr) (interval : Nat) (p : Period) (s : State),
     s.pulse.pending = false → s.align.opState ≠ .unconfigured → s.align.watch = .unset → s.align.timing = true →
     (p = .ms2 ∧ 1960000 ≤ interval ∧ interval ≤ 2040000 ∨ p = .ms4 ∧ 3920000 ≤ interval ∧ interval ≤ 4080000) →
     (c = .epochPulse interval [] ∨ c = .markPulse interval [] ∧ s.align.opState = .listening) →
     let slot := match p with | .ms2 => 250 | .ms4 => 500
     ∃ t : State,
       exec c s = .next t ∧ t.align.watch = .regular ∧ t.align.period = some p ∧ slotTime t = slot ∧
       (∀ i, (ctx t i).ulBarred = if (ctx s i).state = .free then (ctx s i).ulBarred else bars s slot i) ∧
       (t.events.flag .ulBarred = true ↔ s.events.flag .ulBarred = true ∨ turned s slot ≠ [])))

/-- An ATTACH outside UNCONFIGURED is accepted for a FREE index while fewer than N_max contexts are not FREE,
writing its figures, advancing attach_no and deriving ul_barred; it is refused with NOT_READY in UNCONFIGURED,
with IN_USE for an occupied index and with FULL at N_max (R7–R10). -/
def Obligations.AttachIsDecided : Prop :=
  ∀ (i : Index) (ident cls weight rtd : Nat) (rest : List Record) (s : State),
    s.Hands (clampRecord (.attach i ident cls weight rtd)) rest →
    (s.align.opState = .unconfigured →
      exec (.attach i ident cls weight rtd) s = .next (setEvent .attachRefused i.val .notReady (setFifo rest s))) ∧
    (s.align.opState ≠ .unconfigured → (ctx s i).state = .free → attachedCount s < s.config.maxSubscribers →
      exec (.attach i ident cls weight rtd) s =
        .next
          (deriveBar i
            { setFifo rest s with
              contexts :=
                s.contexts.set i
                  { ctx s i with
                    state := .admitting, ident := ident % 2 ^ 24, attachNo := (ctx s i).attachNo + 1,
                    cls := cls % 4, weight := if weight % 16 = 0 then 1 else weight % 16,
                    rtd := min rtd 1000 } })) ∧
    (s.align.opState ≠ .unconfigured → (ctx s i).state ≠ .free →
      exec (.attach i ident cls weight rtd) s = .next (setEvent .attachRefused i.val .inUse (setFifo rest s))) ∧
    (s.align.opState ≠ .unconfigured → (ctx s i).state = .free → attachedCount s = s.config.maxSubscribers →
      exec (.attach i ident cls weight rtd) s = .next (setEvent .attachRefused i.val .full (setFifo rest s)))

/-- A RELEASE outside UNCONFIGURED: an attached context loses its redo entries (their bytes counted as lost), its
backlogs become 0, and it goes to CLOSING, or to FREE with RELEASED code DONE when nothing is outstanding; a
FREE or CLOSING context refuses it, and in UNCONFIGURED it is refused with NOT_READY (R16, R17). -/
def Obligations.ReleaseIsDecided : Prop :=
  ∀ (i : Index) (rest : List Record) (s : State), s.Hands (.release i) rest →
    let bytes := ((s.tracking.redo.filter fun e => e.context == i).map RedoEntry.bytes).sum
    let removed :=
      loseBytes bytes
        { setFifo rest s with
          tracking := { s.tracking with redo := s.tracking.redo.filter fun e => e.context != i } }
    (s.align.opState = .unconfigured →
      exec (.release i) s = .next (setEvent .released i.val .notReady (setFifo rest s))) ∧
    (s.align.opState ≠ .unconfigured → (ctx s i).state.attached = true → 0 < (ctx s i).outstanding →
      exec (.release i) s =
        .next
          { removed with
            contexts :=
              s.contexts.set i { ctx s i with dlBacklog := 0, ulBacklog := 0, state := .closing } }) ∧
    (s.align.opState ≠ .unconfigured → (ctx s i).state.attached = true → (ctx s i).outstanding = 0 →
      exec (.release i) s =
        .next
          (setEvent .released i.val .done
            { removed with
              contexts := s.contexts.set i { Context.reset with attachNo := (ctx s i).attachNo } })) ∧
    (s.align.opState ≠ .unconfigured → (ctx s i).state = .free →
      exec (.release i) s = .next (setEvent .released i.val .notAttached (setFifo rest s))) ∧
    (s.align.opState ≠ .unconfigured → (ctx s i).state = .closing →
      exec (.release i) s = .next (setEvent .released i.val .closing (setFifo rest s)))

/-- A DLDATA, ULBUF, CHANNEL, RANGE or LATE that names a FREE or CLOSING context outside UNCONFIGURED is discarded:
the stray-report counter advances by 1 and no context changes (R27, R28). -/
def Obligations.ReportOnFreeOrClosingIsStray : Prop :=
  ∀ (c : Instr) (r : Record) (i : Index) (rest : List Record) (s : State),
    c.record? = some r → r.reportIndex = some i → s.Hands (clampRecord r) rest → outOfRange r = false →
    s.align.opState ≠ .unconfigured → ((ctx s i).state = .free ∨ (ctx s i).state = .closing) →
    exec c s = .next (advance .strayReports 1 (setFifo rest s))

/-- DLDATA adds its bytes to dl_backlog and ULBUF replaces ul_backlog, both held at 1,048,575 with DLDATA_SATURATED
when the figure is above it; an ACTIVE context's idle count becomes 0, and a DORMANT context wakes to ACTIVE on
any DLDATA and on a ULBUF above 0 (R13, R15, R29, R30). -/
def Obligations.BacklogReports : Prop :=
  (∀ (i : Index) (bytes : Nat) (rest : List Record) (s : State),
    s.Hands (clampRecord (.dlData i bytes)) rest → s.align.opState ≠ .unconfigured →
    (ctx s i).state.attached = true →
    let c := ctx s i
    let sum := c.dlBacklog + bytes % 2 ^ 24
    let t :=
      { setFifo rest s with
        contexts :=
          s.contexts.set i
            { c with
              dlBacklog := min 1048575 sum
              state := if c.state = .dormant then .active else c.state
              idleCount := if c.state = .admitting then c.idleCount else 0 } }
    exec (.dlData i bytes) s = .next (if 1048575 < sum then setEvent .dlDataSaturated i.val .dl t else t)) ∧
  (∀ (i : Index) (bytes : Nat) (rest : List Record) (s : State),
    s.Hands (clampRecord (.ulBuf i bytes)) rest → s.align.opState ≠ .unconfigured →
    (ctx s i).state.attached = true →
    let c := ctx s i
    let figure := bytes % 2 ^ 24
    let wakes := c.state = .dormant ∧ 0 < figure
    let t :=
      { setFifo rest s with
        contexts :=
          s.contexts.set i
            { c with
              ulBacklog := min 1048575 figure
              state := if wakes then .active else c.state
              idleCount := if c.state = .active ∨ wakes then 0 else c.idleCount } }
    exec (.ulBuf i bytes) s = .next (if 1048575 < figure then setEvent .dlDataSaturated i.val .ul t else t))

/-- CHANNEL writes both grades; a dl_grade of 1–15 makes an ADMITTING context ACTIVE with both counts 0, and in
ACTIVE the idle count becomes 0 (R12, R13, R15, R32). RANGE writes rtd and clears late_margin and strikes; LATE raises
late_margin to the excess and counts a strike up to 3; both then derive ul_barred (R35, R36, R160). Nothing else
changes. -/
def Obligations.ChannelRangeAndLateReports : Prop :=
  (∀ (i : Index) (dlGrade ulGrade : Nat) (rest : List Record) (s : State),
    dlGrade ≤ 15 → ulGrade ≤ 15 → s.Hands (.channel i dlGrade ulGrade) rest → s.align.opState ≠ .unconfigured →
    (ctx s i).state.attached = true →
    let c := ctx s i
    let admits := c.state = .admitting ∧ 1 ≤ dlGrade
    exec (.channel i dlGrade ulGrade) s =
      .next
        { setFifo rest s with
          contexts :=
            s.contexts.set i
              { c with
                dlGrade := dlGrade
                ulGrade := ulGrade
                state := if admits then .active else c.state
                idleCount := if c.state = .active ∨ admits then 0 else c.idleCount
                admitCount := if admits then 0 else c.admitCount } }) ∧
  (∀ (i : Index) (rtd : Nat) (rest : List Record) (s : State),
    s.Hands (clampRecord (.range i rtd)) rest → s.align.opState ≠ .unconfigured →
    (ctx s i).state.attached = true →
    exec (.range i rtd) s =
      .next
        (deriveBar i
          { setFifo rest s with
            contexts := s.contexts.set i { ctx s i with rtd := min rtd 1000, lateMargin := 0, strikes := 0 } })) ∧
  (∀ (i : Index) (excess : Nat) (rest : List Record) (s : State),
    s.Hands (clampRecord (.late i excess)) rest → s.align.opState ≠ .unconfigured →
    (ctx s i).state.attached = true →
    exec (.late i excess) s =
      .next
        (deriveBar i
          { setFifo rest s with
            contexts :=
              s.contexts.set i
                { ctx s i with
                  lateMargin := max (ctx s i).lateMargin (min excess 255)
                  strikes := min 3 ((ctx s i).strikes + 1) } }))

/-- A charge lowers the backlog of one direction and holds at 0; a refund raises it and holds at 1,048,575, with
DLDATA_SATURATED code REFUND when the sum is above; neither reaches a CLOSING or FREE context (R18, R31). A redo grant
of a void batch is returned by the four checks in order: a CLOSING context loses its bytes without event; a stored
deadline earlier than the epoch n is REDO_DROP code DEADLINE; a list of 48 is REDO_OVERFLOW; otherwise the list grows
by exactly the entry it was placed from, at the place RedoEntryTakesItsPlace gives it (R91). That a drop sets its event
before it advances the redo-drop counter, and that counter before the bytes lost, is the model's choice (log 38). -/
def Obligations.ChargesRefundsAndReturns : Prop :=
  (∀ (i : Index) (d : Direction) (n : Nat) (s : State),
    let c := ctx s i
    let held := match d with | .dl => c.dlBacklog | .ul => c.ulBacklog
    let written := fun m : Nat =>
      { s with
        contexts :=
          s.contexts.set i (match d with | .dl => { c with dlBacklog := m } | .ul => { c with ulBacklog := m }) }
    (c.state.attached = true →
      charge i d n s = written (held - n) ∧
      refund i d n s =
        (if 1048575 < held + n then setEvent .dlDataSaturated i.val .refund (written 1048575)
        else written (held + n))) ∧
    (c.state = .closing ∨ c.state = .free → charge i d n s = s ∧ refund i d n s = s)) ∧
  (∀ (n : Epoch) (g : OgtEntry) (o : RedoOrigin) (s : State),
    let t := returnGrant n g o s
    let dropped := fun (k : EventKind) (code : Code) =>
      loseBytes g.bytes (advance .redoDrops 1 (setEvent k g.context.val code s))
    if (ctx s g.context).state = .closing then t = loseBytes g.bytes s
    else if 513 ≤ (o.deadline - n).val then t = dropped .redoDrop .deadline
    else if 48 ≤ s.tracking.redo.length then t = dropped .redoOverflow .none
    else
      let entry : RedoEntry :=
        { context := g.context, direction := g.direction, width := g.width, height := g.height,
          grade := g.grade, bytes := g.bytes, redoNumber := g.redoNumber, origin := o.tag,
          deadline := o.deadline, order := o.order }
      t.tracking.redo = insertRedo entry s.tracking.redo ∧ t.tracking.redo.Perm (entry :: s.tracking.redo) ∧
      t.contexts = s.contexts ∧ t.tracking.ogt = s.tracking.ogt ∧ t.events.counters = s.events.counters ∧
      (∀ k, t.events.flag k =
        (s.events.flag k || (decide (k = .redoNearFull) && decide (s.tracking.redo.length = 43)))))

/-! ## Answers to plans and redo (chapter 5) -/

/-- RECEIPT by the Batch Ring record found: a SENT batch and its OGT entries become COMMITTED; a duplicate is
counted; a VOID batch is LATE_RECEIPT; a MISSED batch and any other record are STRAY_RECEIPT; in UNCONFIGURED it
is refused with NOT_READY (R88, R151). That the events come before the stray-receipt counter is the model's choice
(log 38). -/
def Obligations.ReceiptByBatchRecord : Prop :=
  ∀ (e : Epoch) (rest : List Record) (s : State), s.Hands (.receipt e) rest →
    let b := s.tracking.ring.get (ringIndex e)
    (s.align.opState = .unconfigured →
      exec (.receipt e) s = .next (setEvent .linkError 11 .notReady (setFifo rest s))) ∧
    (s.align.opState ≠ .unconfigured → b.target = some e → b.status = .sent →
      exec (.receipt e) s =
        .next
          { setFifo rest s with
            tracking :=
              { s.tracking with
                ring := s.tracking.ring.set (ringIndex e) { target := some e, status := .committed }
                ogt :=
                  s.tracking.ogt.map fun g => if g.tag.epoch = e then { g with committed := true } else g } }) ∧
    (s.align.opState ≠ .unconfigured → b.target = some e → b.status = .committed →
      exec (.receipt e) s = .next (advance .strayReceipts 1 (setFifo rest s))) ∧
    (s.align.opState ≠ .unconfigured → b.target = some e → b.status = .void →
      exec (.receipt e) s =
        .next (advance .strayReceipts 1 (setEvent .lateReceipt e.val .none (setFifo rest s)))) ∧
    (s.align.opState ≠ .unconfigured → b.target = some e → b.status = .missed →
      exec (.receipt e) s =
        .next (advance .strayReceipts 1 (setEvent .strayReceipt e.val .missed (setFifo rest s)))) ∧
    (s.align.opState ≠ .unconfigured → b.target ≠ some e →
      exec (.receipt e) s =
        .next (advance .strayReceipts 1 (setEvent .strayReceipt e.val .unknown (setFifo rest s))))

/-- FEEDBACK by the OGT entry found: a COMMITTED entry leaves the OGT, a FAIL is handed to the Redo List first, and
outstanding of its context falls by 1, freeing a CLOSING context that reaches 0; a SENT entry or none is stray. In
UNCONFIGURED it is refused with NOT_READY (R20, R94, R151). An index above 31 at the head of the FIFO, where R159 never
lets it stand, is the model's choice of log 24: malformed, as at reception. That STRAY_FEEDBACK comes before its counter
and LINK_ERROR after its own is the model's choice of log 38. -/
def Obligations.FeedbackByEntry : Prop :=
  ∀ (e : Epoch) (planIndex : Nat) (fail : Bool) (rest : List Record) (s : State),
    s.Hands (.feedback e planIndex fail) rest →
    (31 < planIndex →
      exec (.feedback e planIndex fail) s =
        .next (setEvent .linkError 10 .range (advance .malformed 1 s.arrived))) ∧
    (planIndex ≤ 31 → s.align.opState = .unconfigured →
      exec (.feedback e planIndex fail) s = .next (setEvent .linkError 10 .notReady (setFifo rest s))) ∧
    (planIndex ≤ 31 → s.align.opState ≠ .unconfigured →
      let tag : Tag := { epoch := e, index := planIndex }
      (∀ g, s.tracking.ogt.find? (fun g => g.tag == tag) = some g → g.committed = true →
        let left :=
          { setFifo rest s with
            tracking := { s.tracking with ogt := s.tracking.ogt.filter fun g => g.tag != tag } }
        let judged := if fail then failGrant g left else left
        let c := ctx s g.context
        exec (.feedback e planIndex fail) s =
          .next
            (if c.state = .closing ∧ c.outstanding - 1 = 0 then
              setEvent .released g.context.val .done
                { judged with
                  contexts := s.contexts.set g.context { Context.reset with attachNo := c.attachNo } }
            else
              { judged with
                contexts := s.contexts.set g.context { c with outstanding := c.outstanding - 1 } })) ∧
      (∀ g, s.tracking.ogt.find? (fun g => g.tag == tag) = some g → g.committed = false →
        exec (.feedback e planIndex fail) s =
          .next (advance .strayFeedback 1 (setEvent .strayFeedback e.val .premature (setFifo rest s)))) ∧
      (s.tracking.ogt.find? (fun g => g.tag == tag) = none →
        exec (.feedback e planIndex fail) s =
          .next (advance .strayFeedback 1 (setEvent .strayFeedback e.val .unknown (setFifo rest s)))))

/-- A failed grant is decided by the four checks in order: a CLOSING context loses its bytes without event; a list
of 48 sets REDO_OVERFLOW; a redo number at the maximum sets REDO_DROP code LIMIT; otherwise one entry is created
with redo number r + 1, the grant's tag as origin and deadline c + D, and the list grows by exactly that entry, at the
place RedoEntryTakesItsPlace gives it (R18, R95). That a drop sets its event before it advances the redo-drop counter,
and that counter before the bytes lost, is the model's choice (log 38). -/
def Obligations.FailedGrantIsDecided : Prop :=
  ∀ (g : OgtEntry) (s : State),
    let dropped := fun (k : EventKind) (code : Code) =>
      loseBytes g.bytes (advance .redoDrops 1 (setEvent k g.context.val code s))
    if (ctx s g.context).state = .closing then failGrant g s = loseBytes g.bytes s
    else if 48 ≤ s.tracking.redo.length then failGrant g s = dropped .redoOverflow .none
    else if s.config.redoMax ≤ g.redoNumber then failGrant g s = dropped .redoDrop .limit
    else
      let entry : RedoEntry :=
        { context := g.context, direction := g.direction, width := g.width, height := g.height,
          grade := g.grade, bytes := g.bytes, redoNumber := g.redoNumber + 1, origin := g.tag,
          deadline := epochAfter (now s) s.config.redoDistance,
          order := { epoch := now s, serial := s.tracking.serial } }
      (failGrant g s).tracking.redo = insertRedo entry s.tracking.redo ∧
      (failGrant g s).tracking.redo.Perm (entry :: s.tracking.redo) ∧
      (failGrant g s).contexts = s.contexts ∧ (failGrant g s).tracking.ogt = s.tracking.ogt ∧
      (failGrant g s).events.counters = s.events.counters ∧
      (∀ k, (failGrant g s).events.flag k =
        (s.events.flag k || (decide (k = .redoNearFull) && decide (s.tracking.redo.length = 43))))

/-- While the deadlines and creation epochs compared lie within 511 epochs from a base, an entry is inserted at one
place: after every entry with an earlier deadline, and among those with its own deadline after every earlier and
before every later creation, epoch before serial; the other entries keep their order (R98, R100). -/
def Obligations.RedoEntryTakesItsPlace : Prop :=
  ∀ (base created : Epoch) (e : RedoEntry) (l : List RedoEntry),
    (∀ x ∈ e :: l, (x.deadline - base).val ≤ 511 ∧ (x.order.epoch - created).val ≤ 511) →
    let key := fun x : RedoEntry =>
      ((x.deadline - base).val, (x.order.epoch - created).val, x.order.serial)
    let before := fun x y : RedoEntry =>
      (key x).1 < (key y).1 ∨
        (key x).1 = (key y).1 ∧
          ((key x).2.1 < (key y).2.1 ∨ (key x).2.1 = (key y).2.1 ∧ (key x).2.2 < (key y).2.2)
    (∀ x ∈ e :: l, ∀ y ∈ e :: l, redoBefore x y = true ↔ before x y) ∧
    (l.Pairwise (fun x y => ¬before y x) →
      ∃ l₁ l₂, l = l₁ ++ l₂ ∧ insertRedo e l = l₁ ++ e :: l₂ ∧ (∀ x ∈ l₁, ¬before e x) ∧ (∀ y ∈ l₂, before e y))

/-! ## FLOOR, CONFIG, REALIGN and hard reset -/

/-- A FLOOR outside UNCONFIGURED writes the requested floor, a value above 3 taken as 3, and changes nothing else;
in UNCONFIGURED it is refused with NOT_READY. The requested floor is 0 after hard reset, every other command
keeps it, and no run has a new-data candidate of a class at or below it (R44). -/
def Obligations.FloorSetsRequestedFloor : Prop :=
  (∀ (requested : Nat) (rest : List Record) (s : State), s.Hands (clampRecord (.floor requested)) rest →
    (s.align.opState = .unconfigured →
      exec (.floor requested) s = .next (setEvent .linkError 12 .notReady (setFifo rest s))) ∧
    (s.align.opState ≠ .unconfigured →
      exec (.floor requested) s =
        .next { setFifo rest s with engine := { s.engine with requestedFloor := min requested 3 } })) ∧
  (∀ (c : Instr) (s t : State), exec c s = .next t →
    (∀ station, c = .hardReset station → t.engine.requestedFloor = 0) ∧
    ((∀ station, c ≠ .hardReset station) → (∀ requested, c ≠ .floor requested) →
      t.engine.requestedFloor = s.engine.requestedFloor)) ∧
  (∀ (sn : Snapshot) (target : Epoch) (d : Direction),
    ∀ x ∈ rankedCandidates sn target d, sn.requestedFloor < x.cls)

/-- A CONFIG in UNCONFIGURED puts its clamped values in force, enters LISTENING with the values of R149 and queues a
CONFIG_ECHO of status ACCEPTED whose mask marks each field with a value in force that differs from the value given
(the overrun and adjacency fields as log 21 says; counts, capability, enables and levels never); in the other states it
is answered with status LOCKED and the values in force and changes nothing (R107, R143, R149, R150, R166). That the
model's own field lastEpoch, which R149 does not list, becomes none is its choice of log 6. -/
def Obligations.ConfigIsAcceptedOnce : Prop :=
  ∀ (b : ConfigBody) (rest : List Record) (s : State), s.Hands (.config b) rest →
    (s.align.opState = .unconfigured →
      ∃ (t : State) (clamped : BitVec 32),
        exec (.config b) s = .next t ∧
        t.config = clampConfig s.align.station b ∧
        t.align =
          { opState := .listening, mode := none, epoch := none, watch := .unset, timing := false, period := none,
            listened := 0, station := s.align.station, lastEpoch := none } ∧
        t.power = { pPrev := 0, allowance := none, powerFloor := 0 } ∧
        t.events.flags = s.events.flags ∧ t.events.counters = s.events.counters ∧
        (∀ k, t.events.enabled k = b.enables.getLsbD k.num) ∧
        (∀ k, t.events.level k =
          (b.levels.getLsbD (2 * k.num)).toNat + 2 * (b.levels.getLsbD (2 * k.num + 1)).toNat) ∧
        t.events.threshold = min 3 (max 1 b.threshold.toNat) ∧ t.events.alert = t.events.alertLevel ∧
        (∀ j, (t.peers.records.get j).adjacent = (b.adjacency.getLsbD j.val && decide (j ≠ s.align.station))) ∧
        (∀ j, t.peers.records.get j =
          { s.peers.records.get j with adjacent := (t.peers.records.get j).adjacent }) ∧
        t.link.fifo = rest ∧
        t.link.queue = s.link.queue ++ [.configEcho true (inForce t.config t.events) clamped] ∧
        (let p := t.config
         let differs : List Bool :=
           [false, false, b.budget.toNat != p.budget, b.floorShare.toNat != p.floorShare,
            b.rampStep.toNat != p.rampStep, b.t1.toNat != p.t1, b.t2.toNat != p.t2, b.adjacency != p.adjacency,
            b.advanceLimit.toNat != p.advanceLimit, b.tailGuard.toNat != p.tailGuard,
            b.maxShadow.toNat != p.maxShadow, b.window.toNat != p.window, b.redoMax.toNat != p.redoMax,
            b.redoDistance.toNat != p.redoDistance, b.idleTimer.toNat != p.idleTimer,
            b.admitTimeout.toNat != p.admitTimeout, b.ageLimit.toNat != p.ageLimit,
            b.edgeGrade.toNat != p.edgeGrade, b.quietGrade.toNat != p.quietGrade, b.tMin.toNat != p.tMin,
            b.tMax.toNat != p.tMax, b.updateInterval.toNat != p.updateInterval, b.holdDown.toNat != p.holdDown,
            b.maxSubscribers.toNat != p.maxSubscribers, b.overrun.toNat != p.keepPolicy.toNat, false, false,
            b.threshold.toNat != t.events.threshold]
         ∀ k, clamped.getLsbD k = differs.getD k false) ∧
        t.contexts = s.contexts ∧ t.tracking = s.tracking ∧ t.engine = s.engine ∧ t.edge = s.edge) ∧
    (s.align.opState ≠ .unconfigured →
      exec (.config b) s = .next (reply (.configEcho false (inForce s.config s.events) 0#32) (setFifo rest s)))

/-- Every configured quantity in force is the value given when that lies in the quantity's range, and otherwise the
nearer end of the range, with T1 against B, T2 against T1 and t_max against t_min already clamped; a non-empty set of
counts and the edge capability are taken as given and an empty set as all three; an age limit of 0 is off; the own
station is removed from the adjacency set (R108, R120, R150). -/
def Obligations.ConfigValuesLieInRange : Prop :=
  ∀ (own : Station) (b : ConfigBody),
    let p := clampConfig own b
    let taken := fun (low high given held : Nat) =>
      (given < low → held = low) ∧ (low ≤ given → given ≤ high → held = given) ∧ (high < given → held = high)
    taken 64 4095 b.budget.toNat p.budget ∧ taken 0 p.budget b.floorShare.toNat p.floorShare ∧
    taken 8 1024 b.rampStep.toNat p.rampStep ∧ taken 0 p.budget b.t1.toNat p.t1 ∧
    taken 0 p.t1 b.t2.toNat p.t2 ∧ taken 0 4 b.tMin.toNat p.tMin ∧ taken p.tMin 8 b.tMax.toNat p.tMax ∧
    taken 4 64 b.updateInterval.toNat p.updateInterval ∧ taken 8 255 b.holdDown.toNat p.holdDown ∧
    taken 2 8 b.window.toNat p.window ∧ taken 0 3 b.redoMax.toNat p.redoMax ∧
    taken 2 16 b.redoDistance.toNat p.redoDistance ∧ taken 16 1024 b.idleTimer.toNat p.idleTimer ∧
    taken 16 255 b.admitTimeout.toNat p.admitTimeout ∧ taken 1 8 b.edgeGrade.toNat p.edgeGrade ∧
    taken 9 15 b.quietGrade.toNat p.quietGrade ∧ taken 0 700 b.advanceLimit.toNat p.advanceLimit ∧
    taken 0 250 b.tailGuard.toNat p.tailGuard ∧ taken 0 3 b.maxShadow.toNat p.maxShadow ∧
    taken 1 256 b.maxSubscribers.toNat p.maxSubscribers ∧
    (b.ageLimit.toNat = 0 → p.ageLimit = 0) ∧
    (0 < b.ageLimit.toNat → taken 8 255 b.ageLimit.toNat p.ageLimit) ∧
    (let given : Counts := ⟨b.counts.getLsbD 0, b.counts.getLsbD 1, b.counts.getLsbD 2⟩
     p.counts = if given = ⟨false, false, false⟩ then ⟨true, true, true⟩ else given) ∧
    p.edgeCapable = b.counts.getLsbD 7 ∧
    (p.keepPolicy = true ↔ b.overrun = 1#8) ∧
    (∀ j : Station, p.adjacency.getLsbD j.val = (b.adjacency.getLsbD j.val && decide (j ≠ own))) ∧
    (64 ≤ p.budget ∧ p.budget ≤ 4095 ∧ p.floorShare ≤ p.budget ∧ p.t1 ≤ p.budget ∧ p.t2 ≤ p.t1 ∧ p.tMin ≤ p.tMax)

/-- REALIGN outside UNCONFIGURED returns the part to LISTENING with the values of R149, discards a run, empties the
tracking state, clears the power, edge and peer state, sets outstanding to 0, frees the CLOSING contexts and removes
every PLAN from the outbound queue. A frame due but not on the line is discarded; an attempt on the line goes on, marked
not to be retried, with no newer frame behind it (log 14). A PLAN at the head of the queue (log 29) is ended by its
check word inverted (log 49), the other records keep their order; the Redo List's bytes are counted as lost and RELEASED
code DONE is set for each CLOSING context, in ascending index order, in the order of logs 14, 35 and 37. Configuration,
requested floor, deferral generator and jabber state are kept (R25, R105, R140, R158, R164). That the attempt number is
1 while no frame is due is the model's choice of log 42, and the count kept for frames on the line, lastEpoch, that of
log 6. That the last BUS_STUCK judgement, stuck, stands across REALIGN is a DEDUCED reading of R139 (log 20). -/
def Obligations.RealignReturnsToListening : Prop :=
  ∀ (rest : List Record) (s : State), s.Hands .realign rest → s.align.opState ≠ .unconfigured →
    ∃ t : State,
      exec .realign s = .next t ∧
      t.align =
        { opState := .listening, mode := none, epoch := none, watch := .unset, timing := false, period := none,
          listened := 0, station := s.align.station, lastEpoch := none } ∧
      t.engine = { s.engine with run := none, carrySource := none, carryTiles := [] } ∧
      t.tracking.ogt = [] ∧ t.tracking.redo = [] ∧
      (∀ p, t.tracking.ring.get p = { target := none, status := .none }) ∧
      t.power = { pPrev := 0, allowance := none, powerFloor := 0 } ∧
      t.edge = { ownSet := 0, holdDown := [], counter := 0, demand := 0, subBands := 0 } ∧
      t.peers.settle = 0 ∧
      (∀ j, t.peers.records.get j = { Peer.reset with adjacent := (s.peers.records.get j).adjacent }) ∧
      (∀ i, ctx t i =
        if (ctx s i).state = .closing then { Context.reset with attachNo := (ctx s i).attachNo }
        else { ctx s i with outstanding := 0 }) ∧
      (let uncut :=
         match s.link.queue with
         | .plan p :: _ => some (.cut p (~~~checkWord (coveredBytes 0x81 (planBytes p))))
         | _ => s.link.lastOut
       let cleared :=
         { setFifo rest s with
           link :=
             { (setFifo rest s).link with queue := s.link.queue.filter (fun r => !r.isPlan), lastOut := uncut } }
       let told :=
         ((List.finRange 256).filter fun i => decide ((ctx s i).state = .closing)).foldl
           (fun u i => setEvent .released i.val .done u)
           (loseBytes ((s.tracking.redo.map RedoEntry.bytes).sum) cleared)
       t.events = told.events ∧ t.link = told.link) ∧
      (∀ p, OutRecord.plan p ∉ t.link.queue) ∧ t.link.fifo = rest ∧ t.link.lost = s.link.lost ∧
      t.bus =
        (if s.bus.access = .sending then
          { s.bus with newer := none, noRetry := true, watchStarted := false, idleSeen := false }
        else
          { s.bus with
            due := none, access := .empty, attempt := 1, units := 0, keepsUnits := false, newer := none,
            noRetry := false, watchStarted := false, idleSeen := false }) ∧
      t.config = s.config ∧ t.events.enables = s.events.enables

/-- HARD_RESET puts every block at its reset values and latches the station number, from every state (R6, R58, R85, R86,
R98, R107, R119, R132, R137, R143, R149, R161–R169). That a PLAN at the head of the outbound queue is the one being sent
is log 29, and the check word inverted at its end is log 49's reading; that the waiting commands are kept is log 22; the
values of the model's own fields, lastEpoch among them, are logs 6, 32 and 33. -/
def Obligations.HardResetValues : Prop :=
  ∀ (station : Station) (s : State),
    ∃ t : State,
      exec (.hardReset station) s = .next t ∧
      t.align =
        { opState := .unconfigured, mode := none, epoch := none, watch := .unset, timing := false, period := none,
          listened := 0, station := station, lastEpoch := none } ∧
      (∀ i, ctx t i =
        { state := .free, ident := 0, attachNo := 0, cls := 0, weight := 1, dlGrade := 0, ulGrade := 0,
          dlBacklog := 0, ulBacklog := 0, avgDl := 0, avgUl := 0, rtd := 0, lateMargin := 0, strikes := 0,
          ulBarred := false, lastServedDl := none, lastServedUl := none, idleCount := 0, admitCount := 0,
          outstanding := 0 }) ∧
      t.engine = { run := none, carrySource := none, carryTiles := [], requestedFloor := 0 } ∧
      (∀ p, t.tracking.ring.get p = { target := none, status := .none }) ∧
      t.tracking.ogt = [] ∧ t.tracking.redo = [] ∧ t.tracking.serial = 0 ∧
      t.power = { pPrev := 0, allowance := none, powerFloor := 0 } ∧
      t.edge = { ownSet := 0, holdDown := [], counter := 0, demand := 0, subBands := 0 } ∧
      t.bus.due = none ∧ t.bus.access = .empty ∧ t.bus.attempt = 1 ∧ t.bus.units = 0 ∧ t.bus.cutOff = false ∧
      t.bus.midFrame = false ∧ t.bus.generator.toNat = 257 * (station.val + 1) ∧
      (∀ j, t.peers.records.get j =
        { state := .absent, silence := 64, ability := none, claim := 0, reserved := 0, demand := 0,
          misaligned := false, excluded := false, mismatch := false, adjacent := false }) ∧
      t.peers.settle = 0 ∧
      t.link.fifo = [] ∧ t.link.ready = true ∧ t.link.queue = [] ∧ t.link.lost = false ∧ t.link.timer = 0 ∧
      (∀ p rest, s.link.queue = .plan p :: rest → t.link.lastOut = some (.cut p (cutCheck p))) ∧
      t.events.flags = 0 ∧ t.events.enables = 0 ∧ t.events.levels = 0 ∧ t.events.threshold = 1 ∧
      (∀ c, t.events.counters.get c = 0) ∧ t.events.remainder = 0 ∧ t.events.alert = false ∧
      t.pending = s.pending

/-- From every state and whatever the command, each setting changes by its own commands alone: the station by hard
reset; the configured quantities, enables, levels and threshold by a CONFIG in UNCONFIGURED; the deferral
generator by an idle line that draws; and the cut-off state, once entered, lasts until hard reset (R120, R137,
R138, R149, R150, R166). -/
def Obligations.SettingsChangeByTheirCommandsAlone : Prop :=
  ∀ (c : Instr) (s t : State), exec c s = .next t → (∀ station, c ≠ .hardReset station) →
    t.align.station = s.align.station ∧
    (((∀ b, c ≠ .config b) ∨ s.align.opState ≠ .unconfigured) →
      t.config = s.config ∧ t.events.enables = s.events.enables ∧ t.events.levels = s.events.levels ∧
        t.events.threshold = s.events.threshold) ∧
    (c ≠ .busIdleDetected → t.bus.generator = s.bus.generator) ∧
    (s.bus.cutOff = true → t.bus.cutOff = true) ∧
    (s.align.opState ≠ .unconfigured → t.align.opState ≠ .unconfigured)

/-! ## The sector link (chapter 10 and 12) -/

/-- ENCODING. Every record whose figures fit its fields, written out as the formats lay it out and received after an
idle byte or a check word, passes the tests, is clamped and joins the FIFO's tail, or with 64 held is an overrun; its
arrival restarts the link-loss timer (R159–R161, R165, R171–R174, R180). That the overruns counter comes before
LINK_OVERRUN is the model's choice of log 38, and what the line's marks hold before and after is log 32. -/
def Obligations.RecordBytesAreReceivedAsTheRecord : Prop :=
  ∀ (r : Record) (s : State), r.fits = true → s.pulse.pending = false → s.link.afterIdle = true →
    (s.link.fifo.length < 64 →
      exec (.recordReceived (recordBytes r)) s =
        .next
          { s.arrived with
            link :=
              { s.arrived.link with
                fifo := s.link.fifo ++ [clampRecord r]
                ready := decide (s.link.fifo.length + 1 < 60) } }) ∧
    (64 ≤ s.link.fifo.length →
      exec (.recordReceived (recordBytes r)) s =
        .next (setEvent .linkOverrun (recordKind r).code.toNat .none (advance .overruns 1 s.arrived)))

/-- A record whose check word does not match is discarded with code CHECK and does not restart the timer; one whose
check word matches restarts it, and is discarded with code KIND when its kind is not one of the fifteen, with
code LENGTH when its length is not that of its kind, and with code RANGE when it is a FEEDBACK with a plan index above
31 or a CHANNEL with a grade above 15; each is counted as malformed (R159, R165). That the malformed counter comes
before LINK_ERROR is the model's choice of log 38, and what the line's marks hold before and after, a wrong check word
too, is logs 23 and 32. -/
def Obligations.MalformedRecordIsDiscarded : Prop :=
  ∀ (kind : Byte) (body : List Byte) (check : BitVec 16) (s : State),
    body.length < 65536 → s.pulse.pending = false → s.link.afterIdle = true →
    let bytes := [0xC3#8, kind] ++ fieldBytes 2 body.length ++ body ++ fieldBytes 2 check.toNat
    let right := checkWord ([kind] ++ fieldBytes 2 body.length ++ body)
    let discarded := fun (code : Code) (u : State) => setEvent .linkError kind.toNat code (advance .malformed 1 u)
    (check ≠ right →
      exec (.recordReceived bytes) s =
        .next (discarded .check { s with link := { s.link with afterIdle := true, idleRun := 0 } })) ∧
    (check = right → (∀ k : Kind, k.code ≠ kind) →
      exec (.recordReceived bytes) s = .next (discarded .kind s.arrived)) ∧
    (∀ k : Kind, check = right → k.code = kind → body.length ≠ k.length →
      exec (.recordReceived bytes) s = .next (discarded .length s.arrived)) ∧
    (check = right →
      (kind = 0x0A#8 ∧ body.length = 4 ∧ 31 < (body.getD 2 0).toNat ∨
        kind = 0x06#8 ∧ body.length = 3 ∧ (15 < (body.getD 1 0).toNat ∨ 15 < (body.getD 2 0).toNat)) →
      exec (.recordReceived bytes) s = .next (discarded .range s.arrived))

/-- Idle pattern of 8 bytes or more restarts the link-loss timer and ends a loss, in one command or counted over several
(log 32), a shorter run restarts nothing; idle bytes before a record's start byte are taken as idle, any other byte
there is discarded, and a start byte that follows it starts nothing. Framing lost inside a record discards it with code
CHECK and restarts nothing, its subject the kind byte where one was received and otherwise a byte the manual leaves
open. The line out carries the bytes of the head of the outbound queue, and the idle byte between records; the record
sent leaves the queue (R159, R163, R165, R171). That the malformed counter comes before LINK_ERROR is the model's choice
of log 38, that framing lost leaves the line as noise does that of log 32, the open subject is log 10, and that the head
of the queue is the record on the line is log 29. -/
def Obligations.LinkEvents : Prop :=
  ∀ s : State, s.pulse.pending = false →
    (∀ count, 0 < count → 8 ≤ s.link.idleRun + count →
      exec (.idlePatternReceived count) s =
        .next { s with link := { s.link with lost := false, timer := 0, afterIdle := true, idleRun := 8 } }) ∧
    (∀ count, 0 < count → s.link.idleRun + count < 8 →
      exec (.idlePatternReceived count) s =
        .next { s with link := { s.link with afterIdle := true, idleRun := s.link.idleRun + count } }) ∧
    (∀ bytes, exec (.recordReceived (0x3C#8 :: bytes)) s =
      (match exec (.idlePatternReceived 1) s with
        | .next t => exec (.recordReceived bytes) t
        | other => other)) ∧
    (∀ b bytes, b ≠ 0x3C#8 → (b ≠ 0xC3#8 ∨ s.link.afterIdle = false) →
      exec (.recordReceived (b :: bytes)) s =
        exec (.recordReceived bytes) { s with link := { s.link with afterIdle := false, idleRun := 0 } }) ∧
    (let lost := { s with link := { s.link with afterIdle := false, idleRun := 0 } }
     (∀ kind more,
      exec (.framingLost (kind :: more)) s =
        .next (setEvent .linkError kind.toNat .check (advance .malformed 1 lost))) ∧
     (∃ n, n < 256 ∧
      exec (.framingLost []) s =
        .next
          (setEvent .linkError n .check (advance .malformed 1 { lost with freeValues := s.freeValues + 1 })))) ∧
    (∀ r rest, s.link.queue = r :: rest → s.link.onLine = outBytes r ∧
      exec .recordSent s = .next { s with link := { s.link with queue := rest, lastOut := some (.whole r) } }) ∧
    (s.link.queue = [] → s.link.onLine = [0x3C#8] ∧ exec .recordSent s = .next s)

/-- Outside OPERATING, LINK_LOSS in VALID passes the watch to LOST and sets its flag, a new run of idle bytes having to
end the loss (log 32; the 10,000 that the timer then holds is log 30), and EPOCH_LOSS in REGULAR or FAULTY passes the
epoch watch to LOST and sets its flag; in LOST, and for EPOCH_LOSS in UNSET, nothing changes. In OPERATING both bring
the entry to HOLDING: the run is aborted, with MISSED in its record, PLAN_MISSED, before all that the voids report (log
36), and its counter; every other batch still SENT is VOID, with BATCH_VOID and its counter, its OGT entries gone,
outstanding lowered, new data refunded and redo grants returned as the current epoch lets them; every other OGT entry,
COMMITTED ones among them, and the Redo List are kept. P_prev is 0 with allowance and floor kept, the edge state and the
carry list are empty, no PLAN stays in the outbound queue, one at its head being ended by its check word inverted (logs
29 and 49) and the other records keeping their order, and the peers, the common mode, the epoch count and the
configuration are kept (R23, R64, R86, R103, R113, R119, R153, R156, R164, R165, R166). -/
def Obligations.LossOfLinkOrPulses : Prop :=
  (∀ s : State, s.pulse.pending = false →
    (s.link.lost = true → exec .linkLoss s = .next s) ∧
    (s.link.lost = false → s.align.opState ≠ .operating →
      exec .linkLoss s =
        .next
          (setEvent .linkLoss (epochField s.align.epoch) .none
            { s with link := { s.link with lost := true, timer := 10000, idleRun := 0 } })) ∧
    ((s.align.watch = .unset ∨ s.align.watch = .lost) → exec .epochLoss s = .next s) ∧
    ((s.align.watch = .regular ∨ s.align.watch = .faulty) → s.align.opState ≠ .operating →
      exec .epochLoss s =
        .next
          (setEvent .epochLoss (epochField s.align.epoch) .none
            { s with align := { s.align with watch := .lost } }))) ∧
  (∀ (c : Instr) (s : State), s.pulse.pending = false → s.align.opState = .operating → s.RingPlaced →
    (c = .linkLoss ∧ s.link.lost = false ∨
      c = .epochLoss ∧ (s.align.watch = .regular ∨ s.align.watch = .faulty)) →
    ∃ t : State,
      exec c s = .next t ∧ t.align.opState = .holding ∧ t.align.mode = s.align.mode ∧
      t.align.epoch = s.align.epoch ∧ t.align.period = s.align.period ∧
      (c = .linkLoss →
        t.link.lost = true ∧ t.link.idleRun = 0 ∧ t.align.watch = s.align.watch ∧
          t.events.flag .linkLoss = true) ∧
      (c = .epochLoss →
        t.link.lost = s.link.lost ∧ t.align.watch = .lost ∧ t.events.flag .epochLoss = true) ∧
      t.engine = { s.engine with run := none, carrySource := none, carryTiles := [] } ∧
      s.TrackingVoided (now s) t.tracking ∧ s.EntryReported t ∧
      (∀ p, (t.tracking.ring.get p).status ≠ .sent) ∧
      (s.FiguresBounded → ∀ i, ctx t i = (ctx s i).afterVoid s.voidedGrants i) ∧
      t.power = { s.power with pPrev := 0 } ∧
      t.edge = { ownSet := 0, holdDown := [], counter := 0, demand := 0, subBands := 0 } ∧
      (∀ p, OutRecord.plan p ∉ t.link.queue) ∧
      s.link.queue.filter (fun r => !r.isPlan) <+: t.link.queue ∧
      t.link.lastOut =
        (match s.link.queue with
        | .plan p :: _ => some (.cut p (~~~checkWord (coveredBytes 0x81 (planBytes p))))
        | _ => s.link.lastOut) ∧
      t.link.fifo = s.link.fifo ∧ t.peers = s.peers ∧ t.config = s.config)

/-! ## EPOCH and MARK pulses (chapters 4 and 9) -/

/-- In UNCONFIGURED a pulse does nothing. In the other states an EPOCH pulse, with its work taken in any order, advances
an aligned count by 1 modulo 1,024, leaves an unaligned one unaligned, and leaves the watch and the period as the table
of R153 gives; the inbound FIFO, the link-loss watch and the configuration are untouched. A pulse with MARK or without,
judged out of tolerance in UNSET with timing, REGULAR or FAULTY, sets EPOCH_FAULT with the new count as subject (log 8),
and another leaves its flag; in OPERATING such a pulse ends in HOLDING with no run, P_prev 0, edge state and carry list
empty, no batch SENT, no PLAN queued and a run in flight MISSED with PLAN_MISSED, in whatever order its work is taken,
and otherwise it leaves the state as it was. With the entry taken first it voids the SENT batches and reports as at a
loss of pulses (log 36), at the new count (logs 8 and 9), before the SCT counts (for a MARK log 43) and, for a MARK, the
deadlines kept are restated; with the run started first, that run is missed too (R11, R13, R64, R96, R103, R149, R152,
R153, R155, R156). That the count before the pulse is kept for frames on the line (R146), in lastEpoch, is the model's
choice of log 6. That the NOTICEs of the entry find the queue before the ATTACH_TIMEOUTs and PEER_ABSENTs of the pulse
is the model's choice of log 46, at an EPOCH pulse log 3. -/
def Obligations.EpochPulseAdvancesAndJudges : Prop :=
  ∀ (interval : Nat) (order : List PulseTask) (s : State), s.pulse.pending = false →
    (s.align.opState = .unconfigured →
      exec (.epochPulse interval order) s = .next s ∧ exec (.markPulse interval order) s = .next s) ∧
    (s.align.opState ≠ .unconfigured →
      ∃ t : State,
        exec (.epochPulse interval order) s = .next t ∧
        t.align.epoch = s.align.epoch.map (fun e => e + 1) ∧ t.align.lastEpoch = s.align.epoch ∧
        (t.align.watch, t.align.period) = watchAfter s.align interval ∧ t.align.station = s.align.station ∧
        t.link.fifo = s.link.fifo ∧ t.link.ready = s.link.ready ∧ t.link.lost = s.link.lost ∧
        t.config = s.config ∧ t.pending = s.pending) ∧
    (s.align.opState ≠ .unconfigured → ∀ c : Instr,
      (c = .epochPulse interval order ∨ c = .markPulse interval order) →
      let count := if c = .markPulse interval order then some 0 else s.align.epoch.map (fun e => e + 1)
      let n := count.getD 0
      ∃ t : State,
        exec c s = .next t ∧
        (¬s.align.Faults interval →
          t.events.flag .epochFault = s.events.flag .epochFault ∧
          (s.align.opState = .operating → t.align.opState = .operating)) ∧
        (s.align.Faults interval →
          t.events.flag .epochFault = true ∧
          (s.events.enabled .epochFault = true → s.link.queue.length ≤ 22 →
            .notice { event := .epochFault, subject := epochField count, code := .none, epoch := count } ∈
              t.link.queue) ∧
          (s.align.opState ≠ .operating → t.align.opState = s.align.opState) ∧
          (s.align.opState = .operating →
            t.align.opState = .holding ∧
            t.engine = { s.engine with run := none, carrySource := none, carryTiles := [] } ∧ t.power.pPrev = 0 ∧
            t.edge = { ownSet := 0, holdDown := [], counter := 0, demand := 0, subBands := 0 } ∧
            (∀ p, OutRecord.plan p ∉ t.link.queue) ∧
            (∀ r, s.engine.run = some r →
              t.events.flag .planMissed = true ∧
                min 65535 (s.events.counter .plansMissed + 1) ≤ t.events.counter .plansMissed) ∧
            (s.RingPlaced →
              (∀ p, (t.tracking.ring.get p).status ≠ .sent) ∧
              (∀ r, s.engine.run = some r → ringIndex r.target ≠ ringIndex (n + 2) →
                t.tracking.ring.get (ringIndex r.target) = { target := some r.target, status := .missed }) ∧
              (order = [] →
                s.EntryReported t ∧
                  ∃ k : Tracking,
                    s.TrackingVoided n k ∧ t.tracking.ring = k.ring ∧
                      (s.FiguresBounded →
                        ∀ i, ctx t i = ((ctx s i).afterVoid s.voidedGrants i).counted i k.redo) ∧
                      (c = .epochPulse interval order → t.tracking.ogt = k.ogt ∧ t.tracking.redo = k.redo) ∧
                      (c = .markPulse interval order →
                        let p := s.align.epoch.getD 1023
                        t.tracking.ogt =
                          k.ogt.map (fun g => { g with feedbackDeadline := g.feedbackDeadline - p - 1 }) ∧
                        t.tracking.redo =
                          k.redo.map fun e =>
                            { e with
                              deadline := e.deadline - p - 1
                              order := { e.order with epoch := e.order.epoch - p - 1 } })) ∧
              (order = [.start] → c = .epochPulse interval order → s.align.mode.isSome = true →
                t.tracking.ring.get (ringIndex (n + 2)) = { target := some (n + 2), status := .missed } ∧
                  t.events.flag .planMissed = true ∧
                  t.events.counter .plansMissed =
                    min 65535 (s.events.counter .plansMissed + if s.engine.run.isSome then 2 else 1))))))

/-- What an EPOCH pulse does to the counts, outside a pulse that faults in OPERATING: admit_count of each ADMITTING
context rises, idle_count of each ACTIVE one rises when both backlogs and outstanding are 0 and no redo entry names it
and is 0 otherwise; the silence counts and the settle count rise; the listened count rises in LISTENING; the ERU counts
to U in OPERATING with edge coordination on and starts over; the bus watch judges the epoch that ended and sets
BUS_STUCK. A MARK ages the peers and judges the bus too, and raises the two counts of every context that is not CLOSING
before an emptying of the tracking state takes its outstanding and the Redo List (R11, R13, R24, R125, R139, R145, R148,
R154; that these belong to the pulse command itself is logs 3 and 8, the counts' place at a MARK logs 9 and 43, and the
fields that hold the idle watch are log 6). That a pulse which does not judge, the first of the idle watch, leaves the
last BUS_STUCK judgement, stuck, as it was is the model's reading of R139, DEDUCED (log 20). -/
def Obligations.PulseRaisesTheCounts : Prop :=
  ∀ (interval : Nat) (s : State), s.pulse.pending = false → s.align.opState ≠ .unconfigured →
    (s.align.opState = .operating → s.align.watch = .regular ∧ intervalRegular s.align interval = true) →
    let ages := fun t : State =>
      (∀ j, (t.peers.records.get j).silence =
        (if (s.peers.records.get j).state = .absent then (s.peers.records.get j).silence
        else (s.peers.records.get j).silence + 1)) ∧
      t.peers.settle = min 255 (s.peers.settle + 1) ∧
      t.align.listened =
        (if s.align.opState = .listening then min 255 (s.align.listened + 1) else s.align.listened) ∧
      t.bus.watchStarted = true ∧ t.bus.idleSeen = false ∧
      t.bus.stuck = (if s.bus.watchStarted then !s.bus.idleSeen else s.bus.stuck) ∧
      t.events.flag .busStuck = (s.events.flag .busStuck || (s.bus.watchStarted && !s.bus.idleSeen))
    let counts := fun (t : State) (i : Index) =>
      let c := ctx s i
      let quiet :=
        c.dlBacklog = 0 ∧ c.ulBacklog = 0 ∧ c.outstanding = 0 ∧ ∀ e ∈ s.tracking.redo, e.context ≠ i
      (ctx t i).state = c.state ∧
      (ctx t i).admitCount = (if c.state = .admitting then c.admitCount + 1 else c.admitCount) ∧
      (c.state = .active → quiet → (ctx t i).idleCount = c.idleCount + 1) ∧
      (c.state = .active → ¬quiet → (ctx t i).idleCount = 0) ∧
      (c.state ≠ .active → (ctx t i).idleCount = c.idleCount)
    (∃ t : State,
      exec (.epochPulse interval []) s = .next t ∧ ages t ∧ (∀ i, counts t i) ∧
      (s.align.opState = .operating →
        t.edge.counter =
          (if edgeOn s = false then s.edge.counter
          else if s.config.updateInterval ≤ s.edge.counter + 1 then 0 else s.edge.counter + 1) ∧
        t.pulse.update = (edgeOn s && decide (s.config.updateInterval ≤ s.edge.counter + 1))) ∧
      (s.align.opState = .holding → t.edge.counter = s.edge.counter ∧ t.pulse.update = false)) ∧
    (∃ t : State,
      exec (.markPulse interval []) s = .next t ∧ ages t ∧ ∀ i, (ctx s i).state ≠ .closing → counts t i)

/-- At a pulse taken in LISTENING, with MARK or without, the five conditions are tested, with the epoch count, the
listened count and the watch as the pulse leaves them, and the part enters OPERATING exactly when all hold; a MARK
aligns the count, so the other four decide there (R154, R155; the settle count is read before the pulse raises it, an
order R154 leaves open, in the order of log 3). Then the running set starts as the own counts and takes each counted
peer in ascending station number: an intersection that is not empty replaces it, and otherwise the peer is marked
excluded, with PEER_INCOMPATIBLE for one that was not incompatible (R147). S is the largest count left, edge
coordination is on when the part and every peer taken are capable, MODE_SET is set with S, and the ERU's counter is 0
(R125). -/
def Obligations.ListeningEndsInOperating : Prop :=
  (∀ (interval : Nat) (s : State), s.pulse.pending = false → s.align.opState = .listening →
    ∃ t : State,
      exec (.epochPulse interval []) s = .next t ∧
      t.align.opState =
        (if s.align.epoch.isSome = true ∧ 15 ≤ s.align.listened ∧ 8 ≤ s.peers.settle ∧
            (watchAfter s.align interval).1 = .regular ∧ s.link.lost = false then .operating
        else .listening)) ∧
  (∀ (interval : Nat) (s : State), s.pulse.pending = false → s.align.opState = .listening →
    ∃ t : State,
      exec (.markPulse interval []) s = .next t ∧ t.align.epoch = some 0 ∧
      t.align.opState =
        (if 15 ≤ s.align.listened ∧ 8 ≤ s.peers.settle ∧ (watchAfter s.align interval).1 = .regular ∧
            s.link.lost = false then .operating
        else .listening)) ∧
  (∀ s : State, s.align.opState = .listening →
    let met :=
      s.align.epoch.isSome = true ∧ 16 ≤ s.align.listened ∧ 8 ≤ s.peers.settle ∧ s.align.watch = .regular ∧
        s.link.lost = false
    (¬met → testListening s = s) ∧
    (met →
      let t := testListening s
      ∃ (running : Nat → Counts) (m : Mode),
        t = { s with align := t.align, edge := t.edge, peers := t.peers, events := t.events, link := t.link } ∧
        t.align = { s.align with opState := .operating, mode := some m } ∧
        t.edge = { s.edge with counter := 0 } ∧ t.peers.settle = s.peers.settle ∧
        running 0 = s.config.counts ∧
        (let counted := fun j : Station =>
           if (s.peers.records.get j).state = .absent then none else (s.peers.records.get j).ability
         let shared := fun (j : Station) (a : Ability) =>
           let r := running j.val
           (⟨r.c12 && a.counts.c12, r.c16 && a.counts.c16, r.c24 && a.counts.c24⟩ : Counts)
         let out := fun j : Station => ∃ a, counted j = some a ∧ shared j a = ⟨false, false, false⟩
         (∀ j a, counted j = some a → ¬out j → running (j.val + 1) = shared j a) ∧
         (∀ j, (counted j = none ∨ out j) → running (j.val + 1) = running j.val) ∧
         (∀ j, out j → t.peers.records.get j = { s.peers.records.get j with excluded := true }) ∧
         (∀ j, ¬out j → t.peers.records.get j = s.peers.records.get j) ∧
         (m.edge = true ↔ s.config.edgeCapable = true ∧ ∀ j a, counted j = some a → ¬out j → a.edge = true) ∧
         (t.events.flag .peerIncompatible = true ↔
           s.events.flag .peerIncompatible = true ∨
             ∃ j, out j ∧ (s.peers.records.get j).excluded = false ∧ (s.peers.records.get j).mismatch = false)) ∧
        m.bands = (if (running 8).c24 then .s24 else if (running 8).c16 then .s16 else .s12) ∧
        t.events.flag .modeSet = true ∧
        (s.events.enabled .modeSet = true → s.link.queue.length ≤ 15 →
          t.link.queue.getLast? =
            some
              (.notice
                { event := .modeSet, subject := epochField s.align.epoch, code := .figure m.bands.bands,
                  epoch := s.align.epoch }))))

/-- An EPOCH pulse in OPERATING within tolerance, with its work taken in any order, starts the run for the epoch two
after the one it begins: the snapshot holds the requested floor, the carry set of the epoch before the target, and an
allowance between Φ and B that is also the one held, with the power floor T1 and T2 derive from it; each direction's
order is its redo entries and then its ranked candidates, the downlink grid is FREE and the uplink grid FREE but for the
carry set; a run still RUNNING is aborted first, with P_prev 0, MISSED in its record, PLAN_MISSED and the plans-missed
counter up by 1, the carry list being left; SHORTAGE is set exactly when the held floor rises from 0. With the run
started before the pulse's other work (log 3) the OGT, the Redo List and every other batch record are left, the NOTICE
of PLAN_MISSED names the aborted target, and the allowance is that of the four steps from P_prev, 0 after an abort, and
the sum of the claims of the records that are PRESENT or STALE; and the snapshot holds the figures of every context that
is not FREE, the redo entries whose deadline is not past, the own set, the blocked set of the peers that are adjacent,
PRESENT or STALE and not incompatible, T_slot and the configured quantities (R45, R52, R53, R59–R61, R63, R66, R86,
R109, R110, R112, R114, R115, R123, R124). -/
def Obligations.PulseInOperatingStartsRun : Prop :=
  ∀ (interval : Nat) (order : List PulseTask) (m : Mode) (e : Epoch) (s : State),
    s.pulse.pending = false → s.align.opState = .operating → s.align.mode = some m → s.align.epoch = some e →
    s.align.watch = .regular → intervalRegular s.align interval = true → s.config.floorShare ≤ s.config.budget →
    ∃ (t : State) (r : Run),
      exec (.epochPulse interval order) s = .next t ∧
      t.align.opState = .operating ∧ t.engine.run = some r ∧ r.target = e + 3 ∧
      r.snapshot.epoch = e + 1 ∧ r.snapshot.bands = m.bands ∧
      r.snapshot.requestedFloor = s.engine.requestedFloor ∧
      r.snapshot.carry = (if s.engine.carrySource = some (e + 2) then s.engine.carryTiles else []) ∧
      (r.snapshot.contexts.map SnapContext.index).Nodup ∧
      (∀ x ∈ r.snapshot.redo, (x.deadline - (e + 1)).val < 513) ∧
      r.dlOrder =
        (r.snapshot.redo.filter fun x => x.direction == .dl).map OrderEntry.redo ++
          (rankedCandidates r.snapshot (e + 3) .dl).map OrderEntry.fresh ∧
      r.ulOrder =
        (r.snapshot.redo.filter fun x => x.direction == .ul).map OrderEntry.redo ++
          (rankedCandidates r.snapshot (e + 3) .ul).map OrderEntry.fresh ∧
      (∀ band slot, band < m.bands.bands → slot < 8 →
        tileAt r.dlGrid band slot = .free ∧
        tileAt r.ulGrid band slot = (if (band, slot) ∈ r.snapshot.carry then .carried else .free)) ∧
      t.power.allowance = some r.snapshot.allowance ∧ t.power.powerFloor = r.snapshot.powerFloor ∧
      s.config.floorShare ≤ r.snapshot.allowance ∧ r.snapshot.allowance ≤ s.config.budget ∧
      t.power.powerFloor =
        (if s.config.t1 ≤ r.snapshot.allowance then 0 else if s.config.t2 ≤ r.snapshot.allowance then 1 else 2) ∧
      t.power.pPrev = (if s.engine.run.isSome then 0 else s.power.pPrev) ∧
      t.engine = { s.engine with run := some r } ∧
      (t.events.flag .planMissed = true ↔ s.events.flag .planMissed = true ∨ s.engine.run.isSome = true) ∧
      t.events.counter .plansMissed =
        (if s.engine.run.isSome then min 65535 (s.events.counter .plansMissed + 1)
        else s.events.counter .plansMissed) ∧
      (∀ a, s.engine.run = some a →
        t.tracking.ring.get (ringIndex a.target) = { target := some a.target, status := .missed }) ∧
      (t.events.flag .shortage = true ↔
        s.events.flag .shortage = true ∨ s.power.powerFloor = 0 ∧ 0 < t.power.powerFloor) ∧
      (order = [] →
        t.tracking.ogt = s.tracking.ogt ∧ t.tracking.redo = s.tracking.redo ∧
        (∀ p, (∀ a, s.engine.run = some a → ringIndex a.target ≠ p) →
          t.tracking.ring.get p = s.tracking.ring.get p) ∧
        (∀ a, s.engine.run = some a → s.events.enabled .planMissed = true → s.link.queue.length ≤ 20 →
          .notice { event := .planMissed, subject := a.target.val, code := .none, epoch := some (e + 1) } ∈
            t.link.queue) ∧
        (let claims :=
           ((List.finRange 8).map fun j =>
             if (s.peers.records.get j).state = .absent then 0 else (s.peers.records.get j).claim).sum
         let prev := if s.engine.run.isSome then 0 else s.power.pPrev
         r.snapshot.allowance =
           min (max (min (s.config.budget - claims) (prev + s.config.rampStep)) s.config.floorShare)
             s.config.budget) ∧
        (∀ i,
          let c := ctx s i
          r.snapshot.contexts.find? (fun x => x.index == i) =
            if c.state = .free then none
            else
              some
                { index := i, state := c.state, attachNo := c.attachNo, ident := c.ident, cls := c.cls,
                  weight := c.weight, dlGrade := c.dlGrade, ulGrade := c.ulGrade, dlBacklog := c.dlBacklog,
                  ulBacklog := c.ulBacklog, avgDl := c.avgDl, avgUl := c.avgUl, lastServedDl := c.lastServedDl,
                  lastServedUl := c.lastServedUl, rtd := c.rtd, lateMargin := c.lateMargin,
                  ulBarred := c.ulBarred }) ∧
        r.snapshot.redo = s.tracking.redo.filter (fun x => decide ((x.deadline - (e + 1)).val < 513)) ∧
        r.snapshot.ownSet = (if m.edge then s.edge.ownSet else 0) ∧
        (∀ b, b < 24 →
          (r.snapshot.blockedSet.getLsbD b = true ↔
            m.edge = true ∧ b < m.bands.bands ∧
              ∃ j : Station,
                let p := s.peers.records.get j
                p.adjacent = true ∧ p.state ≠ .absent ∧ p.excluded = false ∧ p.mismatch = false ∧
                  p.reserved.getLsbD b = true)) ∧
        r.snapshot.slotTime = slotTime s ∧ r.snapshot.edgeGrade = s.config.edgeGrade ∧
        r.snapshot.quietGrade = s.config.quietGrade ∧ r.snapshot.ageLimit = s.config.ageLimit ∧
        r.snapshot.advanceLimit = s.config.advanceLimit ∧ r.snapshot.tailGuard = s.config.tailGuard ∧
        r.snapshot.maxShadow = s.config.maxShadow)

/-- A MARK sets the count to 0 and sets MARKER_SLIP when an aligned count did not stand at 1,023. In OPERATING within
tolerance it brings marker recovery: a run in flight is aborted with PLAN_MISSED, before the emptying (log 34), the
plans-missed counter and P_prev 0, and with none P_prev is kept, as allowance and floor are in both; no run, empty carry
list, ring, OGT and Redo List, outstanding 0 in every context, each CLOSING context freed with RELEASED code DONE, the
Redo List's bytes counted as lost, the ERU's counter 0, its set kept, and each hold-down expiry e restated as e − p − 1,
with p the epoch before the pulse, those at 0 leaving (R6, R24, R65, R85, R104, R107, R113, R125, R129, R152, R155).
That the NOTICEs of the recovery find the queue before the ATTACH_TIMEOUTs and PEER_ABSENTs of the pulse is the model's
choice of log 46. -/
def Obligations.MarkBringsRecovery : Prop :=
  ∀ (interval : Nat) (order : List PulseTask) (s : State),
    s.pulse.pending = false → s.align.opState ≠ .unconfigured →
    ∃ t : State,
      exec (.markPulse interval order) s = .next t ∧ t.align.epoch = some 0 ∧
      (∀ e, s.align.epoch = some e → e ≠ 1023 → t.events.flag .markerSlip = true) ∧
      (t.align.watch, t.align.period) = watchAfter s.align interval ∧
      (s.align.opState = .operating → s.align.watch = .regular → intervalRegular s.align interval = true →
        t.align.opState = .operating ∧
        t.engine = { s.engine with run := none, carrySource := none, carryTiles := [] } ∧
        t.power = (if s.engine.run.isSome then { s.power with pPrev := 0 } else s.power) ∧
        (t.events.flag .planMissed = true ↔ s.events.flag .planMissed = true ∨ s.engine.run.isSome = true) ∧
        t.events.counter .plansMissed =
          (if s.engine.run.isSome then min 65535 (s.events.counter .plansMissed + 1)
          else s.events.counter .plansMissed) ∧
        (∀ r, s.engine.run = some r → s.events.enabled .planMissed = true → s.link.queue.length ≤ 20 →
          .notice { event := .planMissed, subject := r.target.val, code := .none, epoch := some 0 } ∈ t.link.queue) ∧
        (∀ p, t.tracking.ring.get p = { target := none, status := .none }) ∧
        t.tracking.ogt = [] ∧ t.tracking.redo = [] ∧
        (∀ i, (ctx t i).state ≠ .closing ∧ (ctx t i).outstanding = 0) ∧ s.EmptyingReported t ∧
        t.edge.counter = 0 ∧ t.edge.ownSet = s.edge.ownSet ∧ t.edge.demand = s.edge.demand ∧
        t.edge.subBands = s.edge.subBands ∧
        (∀ p, s.align.epoch = some p →
          t.edge.holdDown =
            (s.edge.holdDown.map fun h => { h with expiry := h.expiry - p - 1 }).filter fun h => h.expiry != 0))

/-- A MARK in HOLDING ends it when the watch, after judging the pulse, is REGULAR and the link is VALID: the part is
OPERATING with empty tracking, carry and edge state and no run, outstanding 0 in every context, each CLOSING context
freed with RELEASED code DONE and the Redo List's bytes counted as lost; otherwise it stays in HOLDING, nothing is lost
and every feedback deadline and redo deadline e becomes e − p − 1, tags kept (R6, R24, R96, R101, R104, R157). That the
NOTICEs of the exit find the queue before the ATTACH_TIMEOUTs and PEER_ABSENTs of the pulse is the model's choice of log
46. -/
def Obligations.MarkInHolding : Prop :=
  ∀ (interval : Nat) (order : List PulseTask) (p : Epoch) (s : State),
    s.pulse.pending = false → s.align.opState = .holding → s.align.epoch = some p → s.engine.run = none →
    ∃ t : State,
      exec (.markPulse interval order) s = .next t ∧ t.align.epoch = some 0 ∧ t.engine.run = none ∧
      (if (watchAfter s.align interval).1 = .regular ∧ s.link.lost = false then
        t.align.opState = .operating ∧ t.tracking.ogt = [] ∧ t.tracking.redo = [] ∧
        (∀ q, t.tracking.ring.get q = { target := none, status := .none }) ∧
        t.edge = { ownSet := 0, holdDown := [], counter := 0, demand := 0, subBands := 0 } ∧
        t.engine.carrySource = none ∧ t.engine.carryTiles = [] ∧
        (∀ i, (ctx t i).state ≠ .closing ∧ (ctx t i).outstanding = 0) ∧ s.EmptyingReported t
      else
        t.align.opState = .holding ∧
        t.tracking.ogt =
          s.tracking.ogt.map (fun g => { g with feedbackDeadline := g.feedbackDeadline - p - 1 }) ∧
        t.tracking.redo =
          s.tracking.redo.map (fun r =>
            { r with deadline := r.deadline - p - 1, order := { r.order with epoch := r.order.epoch - p - 1 } }) ∧
        t.tracking.ring = s.tracking.ring ∧ t.events.remainder = s.events.remainder ∧
        t.events.counter .bytesLost = s.events.counter .bytesLost ∧
        t.events.flag .released = s.events.flag .released ∧
        ∀ i, (ctx s i).state ≠ .admitting → (ctx t i).outstanding = (ctx s i).outstanding)

/-! ## The parts of a pulse's work that have rows of their own -/

/-- BATCH_VOID due at the pulse that begins epoch n, with batch n SENT: the record becomes VOID, every OGT entry of
the batch leaves and no other, outstanding of each context falls by its entries, freeing a CLOSING one that reaches 0,
new data is refunded to the attached contexts (R31), and redo grants return to the Redo List under their origin (R91);
BATCH_VOID is set and the counter advances. A record that is not SENT for n changes nothing but that the part has been
taken (R90). That a part not due changes nothing is log 3's choice. -/
def Obligations.BatchVoidAtTarget : Prop :=
  ∀ (n : Epoch) (s : State), s.align.epoch = some n →
    (s.pulse.batchVoid = false → exec .batchVoid s = .next s) ∧
    (s.pulse.batchVoid = true → (s.align.opState = .operating ∨ s.align.opState = .holding) →
      s.tracking.ring.get (ringIndex n) ≠ { target := some n, status := .sent } →
      exec .batchVoid s = .next { s with pulse := { s.pulse with batchVoid := false } }) ∧
    (s.pulse.batchVoid = true → (s.align.opState = .operating ∨ s.align.opState = .holding) →
      s.tracking.ring.get (ringIndex n) = { target := some n, status := .sent } → s.FiguresBounded →
      ∃ t : State,
        exec .batchVoid s = .next t ∧
        t.tracking.ring = s.tracking.ring.set (ringIndex n) { target := some n, status := .void } ∧
        t.tracking.ogt = s.tracking.ogt.filter (fun g => g.tag.epoch != n) ∧
        (let batch := s.tracking.ogt.filter fun g => g.tag.epoch == n
         (∀ i, ctx t i = (ctx s i).afterVoid batch i) ∧ s.RedoReturned n batch t.tracking.redo) ∧
        t.events.flag .batchVoid = true ∧
        t.events.counter .batchesVoided = min 65535 (s.events.counter .batchesVoided + 1) ∧
        t.pulse = { s.pulse with batchVoid := false } ∧ t.power = s.power ∧ t.edge = s.edge ∧
        t.engine = s.engine ∧ t.bus = s.bus ∧ t.peers = s.peers ∧ t.align = s.align)

/-- GRANT_EXPIRY due at the pulse that begins epoch n removes exactly the tags of the COMMITTED entries whose feedback
deadline is earlier than n; outstanding of each context falls by its expired entries, freeing a CLOSING one that reaches
0, and each expired grant is handed to the Redo List as a failure, an entry for it having redo number r + 1, its tag as
origin and deadline n + D (R19, R95, R96). REDO_DROP due there removes exactly the redo entries whose deadline is
earlier than n, with one redo drop counted, its bytes counted as lost and REDO_DROP set for each, with its context as
subject and code DEADLINE, in list order; the NOTICEs are queued in that order with room for them, and one for each is
all that is queued where no COUNTER_HALF can stand between them (R101, R166). -/
def Obligations.ExpiryAndDeadlineRemoval : Prop :=
  ∀ (n : Epoch) (s : State), s.align.epoch = some n →
    (s.align.opState = .operating ∨ s.align.opState = .holding) →
    (s.pulse.grantExpiry = true →
      ∃ t : State,
        exec .grantExpiry s = .next t ∧
        t.tracking.ogt =
          s.tracking.ogt.filter (fun g =>
            !s.tracking.ogt.any fun h =>
              h.tag == g.tag && h.committed && decide (513 ≤ (h.feedbackDeadline - n).val)) ∧
        (let expired := s.tracking.ogt.filter fun g => g.committed && decide (513 ≤ (g.feedbackDeadline - n).val)
         (∀ i,
          let c := ctx s i
          let mine := expired.filter fun g => g.context == i
          ctx t i =
            (if c.state = .closing ∧ mine ≠ [] ∧ c.outstanding ≤ mine.length then
              { Context.reset with attachNo := c.attachNo }
            else { c with outstanding := c.outstanding - mine.length })) ∧
         (∀ e ∈ s.tracking.redo, e ∈ t.tracking.redo) ∧
         (∀ e ∈ t.tracking.redo, e ∈ s.tracking.redo ∨
          ∃ g ∈ expired, ∃ serial, g.redoNumber < s.config.redoMax ∧
            e =
              { context := g.context, direction := g.direction, width := g.width, height := g.height,
                grade := g.grade, bytes := g.bytes, redoNumber := g.redoNumber + 1, origin := g.tag,
                deadline := epochAfter n s.config.redoDistance, order := { epoch := n, serial := serial } }) ∧
         (∀ g ∈ expired, (ctx s g.context).state ≠ .closing → g.redoNumber < s.config.redoMax →
          s.tracking.redo.length + expired.length ≤ 48 → ∃ e ∈ t.tracking.redo, e.origin = g.tag)) ∧
        t.pulse = { s.pulse with grantExpiry := false } ∧ t.tracking.ring = s.tracking.ring ∧
        t.engine = s.engine ∧ t.power = s.power ∧ t.align = s.align) ∧
    (s.pulse.redoDrop = true → s.CountersBounded →
      ∃ t : State,
        exec .redoDrop s = .next t ∧
        t.tracking =
          { s.tracking with
            redo := s.tracking.redo.filter (fun e => decide ((e.deadline - n).val < 513)) } ∧
        t.events.counter .redoDrops =
          min 65535
            (s.events.counter .redoDrops +
              (s.tracking.redo.filter fun e => decide (513 ≤ (e.deadline - n).val)).length) ∧
        (let lost :=
           ((s.tracking.redo.filter fun e => decide (513 ≤ (e.deadline - n).val)).map RedoEntry.bytes).sum
         t.events.remainder = (s.events.remainder + lost) % 64 ∧
         t.events.counter .bytesLost =
           min 65535 (s.events.counter .bytesLost + (s.events.remainder + lost) / 64)) ∧
        (t.events.flag .redoDrop = true ↔
          s.events.flag .redoDrop = true ∨ ∃ e ∈ s.tracking.redo, 513 ≤ (e.deadline - n).val) ∧
        (let gone := s.tracking.redo.filter fun e => decide (513 ≤ (e.deadline - n).val)
         let told := gone.map fun e =>
           OutRecord.notice { event := .redoDrop, subject := e.context.val, code := .deadline, epoch := some n }
         let isDrop := fun r : OutRecord =>
           match r with
           | .notice x => x.event == .redoDrop
           | _ => false
         s.events.enabled .redoDrop = true →
           (s.link.queue.length + 3 * gone.length ≤ 24 →
             t.link.queue.filter isDrop = s.link.queue.filter isDrop ++ told) ∧
           (s.events.enabled .counterHalf = false → s.link.queue.length + gone.length ≤ 24 →
             t.link.queue = s.link.queue ++ told)) ∧
        t.pulse = { s.pulse with redoDrop := false } ∧ t.contexts = s.contexts ∧ t.engine = s.engine ∧
        t.align = s.align)

/-- ATTACH_TIMEOUT frees an ADMITTING context whose count has reached the admit timeout and sets the event;
GO_DORMANT makes an ACTIVE context whose idle count has reached the idle timer DORMANT with count and averages
0; PEER_STALE passes a PRESENT record with silence count 4 or more to STALE, its figures kept; PEER_ABSENT passes a
record with silence count 64 or more to ABSENT with the empty values, the settle count 0 and PEER_ABSENT set; below the
limits, and in other states, nothing changes (R11, R14, R143, R145, R148). -/
def Obligations.CountsReachTheirLimits : Prop :=
  (∀ (i : Index) (s : State),
    exec (.attachTimeout i) s =
      .next
        (if (ctx s i).state = .admitting ∧ s.config.admitTimeout ≤ (ctx s i).admitCount then
          setEvent .attachTimeout i.val .none
            { s with contexts := s.contexts.set i { Context.reset with attachNo := (ctx s i).attachNo } }
        else s) ∧
    exec (.goDormant i) s =
      .next
        (if (ctx s i).state = .active ∧ s.config.idleTimer ≤ (ctx s i).idleCount then
          { s with
            contexts :=
              s.contexts.set i { ctx s i with state := .dormant, idleCount := 0, avgDl := 0, avgUl := 0 } }
        else s)) ∧
  (∀ (j : Station) (s : State),
    let p := s.peers.records.get j
    exec (.peerStale j) s =
      .next
        (if p.state = .present ∧ 4 ≤ p.silence then
          { s with peers := { s.peers with records := s.peers.records.set j { p with state := .stale } } }
        else s) ∧
    exec (.peerAbsent j) s =
      .next
        (if p.state ≠ .absent ∧ 64 ≤ p.silence then
          setEvent .peerAbsent j.val .none
            { s with
              peers :=
                { records :=
                    s.peers.records.set j
                      { state := .absent, silence := 64, ability := none, claim := 0, reserved := 0, demand := 0,
                        misaligned := false, excluded := p.excluded, mismatch := false, adjacent := p.adjacent }
                  settle := 0 } }
        else s))

/-- An update event due in OPERATING with edge coordination on: hold-downs that expire at this pulse and are still due
leave first; exactly the own sub-bands that a counting peer holds with a larger demand, or an equal one and a smaller
station number, are yielded and held down until H epochs on; the set then moves by at most one sub-band towards the
target size, adding the lowest sub-band that is free, unblocked and not held down, or removing the highest
(R125–R128; the figures held are used also after a return to OPERATING, log 39). HOLD_DOWN_EXPIRY due at the pulse that
begins epoch n in OPERATING removes every hold-down entry whose expiry epoch equals n and changes nothing else (R129).
That a part not due changes nothing is log 3's choice. -/
def Obligations.EdgeUpdateAndHoldDown : Prop :=
  (∀ (s : State), (s.pulse.update = false → exec .updateEvent s = .next s) ∧
    (s.pulse.update = true → s.align.opState = .operating → edgeOn s = true →
    let before := if s.pulse.holdDown then s.edge.holdDown.filter fun h => h.expiry != now s else s.edge.holdDown
    ∃ (t : State) (left : SubBands),
      exec .updateEvent s = .next t ∧
      t = { s with edge := t.edge, pulse := { s.pulse with update := false, holdDown := false } } ∧
      (∀ b, b < 24 →
        left.getLsbD b =
          (s.edge.ownSet.getLsbD b &&
            !((List.finRange 8).any fun j =>
              let p := s.peers.records.get j
              p.adjacent && p.state != .absent && !p.excluded && !p.mismatch && p.reserved.getLsbD b &&
                (decide (s.edge.demand < p.demand) ||
                  (decide (s.edge.demand = p.demand) && decide (j.val < s.align.station.val)))))) ∧
      t.edge.holdDown =
        before ++
          (((List.range 24).filter fun b => s.edge.ownSet.getLsbD b && !left.getLsbD b).map fun b =>
            { band := b, expiry := epochAfter (now s) s.config.holdDown }) ∧
      t.edge.demand = s.edge.demand ∧ t.edge.subBands = s.edge.subBands ∧ t.edge.counter = s.edge.counter ∧
      (let size := (members left).length
       let target := min s.config.tMax (max s.config.tMin (s.edge.subBands + 1))
       (size = target → t.edge.ownSet = left) ∧
       (size < target →
         (∃ b, b < bandsOf s ∧ left.getLsbD b = false ∧ (blockedSet s).getLsbD b = false ∧
           (∀ h ∈ t.edge.holdDown, h.band ≠ b) ∧ t.edge.ownSet = withBand left b ∧
           ∀ c, c < b →
             left.getLsbD c = true ∨ (blockedSet s).getLsbD c = true ∨ ∃ h ∈ t.edge.holdDown, h.band = c) ∨
         (t.edge.ownSet = left ∧
           ∀ b, b < bandsOf s →
             left.getLsbD b = true ∨ (blockedSet s).getLsbD b = true ∨ ∃ h ∈ t.edge.holdDown, h.band = b)) ∧
       (target < size →
         ∃ b, left.getLsbD b = true ∧ (∀ c, b < c → left.getLsbD c = false) ∧
           t.edge.ownSet = without left b)))) ∧
  (∀ (n : Epoch) (s : State), s.align.epoch = some n →
    (s.pulse.holdDown = false → exec .holdDownExpiry s = .next s) ∧
    (s.pulse.holdDown = true → s.align.opState = .operating →
      exec .holdDownExpiry s =
        .next
          { s with
            edge := { s.edge with holdDown := s.edge.holdDown.filter fun h => h.expiry != n }
            pulse := { s.pulse with holdDown := false } }))

/-! ## The completion of a run (chapters 3 and 4) -/

/-- The completion of a run delivers one PLAN for its target with at most 16 grants in each direction, whose grant
records are those of the placed grants whose contexts pass the live test of R22, downlink before uplink, indexed from 0
and with the figures of their placement and their grade's row; its downlink power does not exceed the run's allowance
and becomes P_prev, the batch is SENT with one SENT OGT entry for each grant under its tag, and no run remains. With no
run, or with no free outbound entry (log 12), nothing changes; that the NOTICEs of the counters follow the PLAN in the
queue is log 25 (R22, R67, R71, R79–R82, R84). -/
def Obligations.RunCompletionDeliversPlan : Prop :=
  ∀ s : State, s.pulse.pending = false →
    (s.engine.run = none → exec .runCompletion s = .next s) ∧
    (32 ≤ s.link.queue.length → exec .runCompletion s = .next s) ∧
    (∀ r, s.engine.run = some r → s.link.queue.length < 32 →
      let seen := fun i : Index => r.snapshot.contexts.find? fun c => c.index == i
      let live := fun p : Placed =>
        match seen p.context with
        | some c => (ctx s p.context).state.attached && (ctx s p.context).attachNo == c.attachNo
        | none => false
      let delivered := ((placeDownlink r).placed ++ (placeUplink r).placed).filter live
      ∃ (t : State) (p : Plan) (entries : List OgtEntry) (notices : List Notice),
        exec .runCompletion s = .next t ∧ t.engine.run = none ∧ t.engine.carrySource = some r.target ∧
        t.engine.requestedFloor = s.engine.requestedFloor ∧
        t.link.queue = s.link.queue ++ .plan p :: notices.map OutRecord.notice ∧
        p.target = r.target ∧ p.allowance = r.snapshot.allowance ∧ p.power ≤ r.snapshot.allowance ∧
        p.power = (delivered.map fun x => x.width * x.height * x.tilePower).sum ∧
        p.effectiveFloor = max r.snapshot.powerFloor r.snapshot.requestedFloor ∧
        p.dlCount ≤ 16 ∧ p.ulCount ≤ 16 ∧ p.grants.length = p.dlCount + p.ulCount ∧
        (∀ n, n < p.dlCount → (p.grants[n]?).map Grant.direction = some .dl) ∧
        (∀ n, p.dlCount ≤ n → n < p.grants.length → (p.grants[n]?).map Grant.direction = some .ul) ∧
        p.grants.length = delivered.length ∧
        (∀ (n : Nat) (x : Placed), delivered[n]? = some x →
          p.grants[n]? =
            some
              { index := n, context := x.context,
                ident := (match seen x.context with | some c => c.ident | none => 0),
                direction := x.direction, firstBand := x.firstBand, width := x.width, firstSlot := x.firstSlot,
                height := x.height, grade := x.grade, scheme := (gradeRow x.grade).scheme,
                repetition := (gradeRow x.grade).repetition, capacity := x.capacity, bytes := x.bytes,
                tilePower := x.tilePower,
                redoNumber := (match x.redo with | some e => e.redoNumber | none => 0) } ∧
          entries[n]? =
            some
              { tag := { epoch := r.target, index := n }, context := x.context, direction := x.direction,
                width := x.width, height := x.height, grade := x.grade, bytes := x.bytes, committed := false,
                feedbackDeadline := epochAfter r.target s.config.window,
                redoNumber := (match x.redo with | some e => e.redoNumber | none => 0),
                origin := x.redo.map fun e => { tag := e.origin, deadline := e.deadline, order := e.order } }) ∧
        entries.length = delivered.length ∧
        t.power = { s.power with pPrev := p.power } ∧
        t.tracking.ring = s.tracking.ring.set (ringIndex r.target) { target := some r.target, status := .sent } ∧
        t.tracking.ogt = s.tracking.ogt ++ entries ∧
        t.align = s.align ∧ t.peers = s.peers ∧ t.config = s.config)

/-- What the completion of a run hands on besides the plan, for the delivered grants: outstanding rises by the grants of
a context and each new-data grant charges its backlog; every context that was ACTIVE in the snapshot and is live has
its averages and last_served updated, and no other has; the redo entries that delivered grants came from leave the Redo
List; the edge demand is the tiles of the edge grants and the sub-band count the sub-bands they cover; the carry set is
the spill tiles; and the struck grants and the unplaced candidates advance their counters (R22, R31, R55–R57, R80–R82,
R122). -/
def Obligations.CompletionHandsOff : Prop :=
  ∀ (s : State) (r : Run), s.pulse.pending = false → s.engine.run = some r → s.link.queue.length < 32 →
    s.SnapshotDistinct →
    let live := fun i : Index =>
      r.snapshot.contexts.any fun c =>
        c.index == i && (ctx s i).state.attached && (ctx s i).attachNo == c.attachNo
    let placed := (placeDownlink r).placed ++ (placeUplink r).placed
    let delivered := placed.filter fun p => live p.context
    let mine := fun i : Index => delivered.filter fun p => p.context == i
    let fresh := fun (i : Index) (d : Direction) => (mine i).filter fun p => p.redo.isNone && p.direction == d
    let served := fun (i : Index) (d : Direction) => ((fresh i d).map Placed.bytes).sum
    let averaged := fun i : Index => r.snapshot.contexts.any (fun c => c.index == i && c.state == .active) && live i
    let edge := delivered.filter Placed.edge
    ∃ t : State,
      exec .runCompletion s = .next t ∧
      (∀ i,
        let c := ctx s i
        ctx t i =
          { c with
            outstanding := c.outstanding + (mine i).length
            dlBacklog := c.dlBacklog - served i .dl
            ulBacklog := c.ulBacklog - served i .ul
            avgDl := if averaged i then min 1048575 (c.avgDl - c.avgDl / 16 + served i .dl) else c.avgDl
            avgUl := if averaged i then min 1048575 (c.avgUl - c.avgUl / 16 + served i .ul) else c.avgUl
            lastServedDl := if averaged i && !(fresh i .dl).isEmpty then some r.target else c.lastServedDl
            lastServedUl := if averaged i && !(fresh i .ul).isEmpty then some r.target else c.lastServedUl }) ∧
      t.tracking.redo =
        s.tracking.redo.filter (fun e => !delivered.any fun p => p.redo.any fun x => x.origin == e.origin) ∧
      t.edge =
        { s.edge with
          demand := (edge.map fun p => p.width * p.height).sum
          subBands :=
            ((List.range 24).filter fun b =>
              edge.any fun p => decide (p.firstBand ≤ b) && decide (b < p.firstBand + p.width)).length } ∧
      t.engine.carryTiles = delivered.flatMap Placed.spill ∧
      t.events.counter .grantsStruck =
        min 65535 (s.events.counter .grantsStruck + (placed.length - delivered.length)) ∧
      t.events.counter .unplaced =
        min 65535 (s.events.counter .unplaced + ((placeDownlink r).unplaced + (placeUplink r).unplaced))

/-- Which frame becomes due and what it carries, outside the cut-off state. A frame that becomes due replaces one not on
the line, with attempt number 1, and follows one on the line (R134). A completion makes the ANNOUNCE of its target due
with the plan power as claim (R116), an abort by an EPOCH or MARK pulse that of the aborted target with claim 0 (R117),
and the entry to HOLDING, at a loss of link or pulses or at a pulse out of tolerance, that of the aborted target or of
the epoch two on with claim 0 and an empty set (R118, R153, R156), the current epoch at such a pulse being that of logs
8 and 9; where the run is started before such an entry, the target is that run's. Each carries the set and the demand as
held (R122). A pulse in LISTENING makes an ABILITY due with the configured counts and capability (R133). The fields
newer, noRetry and keepsUnits of the transmit side are log 6. -/
def Obligations.FramesBecomeDue : Prop :=
  ∀ s : State, s.bus.cutOff = false →
    (∀ f,
      (s.bus.access = .sending → frameDue f s = { s with bus := { s.bus with newer := some f } }) ∧
      (s.bus.access ≠ .sending →
        frameDue f s =
          { s with
            bus :=
              { s.bus with
                due := some f, access := .waiting, attempt := 1, units := 0, keepsUnits := false, newer := none,
                noRetry := false } })) ∧
    (s.pulse.pending = false →
      (∀ r, s.engine.run = some r → s.link.queue.length < 32 →
        ∃ t, exec .runCompletion s = .next t ∧
          t.bus.latest =
            some
              (.announce s.align.station s.align.opState r.target t.power.pPrev s.edge.ownSet t.edge.demand
                s.align.mode)) ∧
      (∀ c : Instr, s.align.opState = .operating →
        (c = .linkLoss ∧ s.link.lost = false ∨
          c = .epochLoss ∧ (s.align.watch = .regular ∨ s.align.watch = .faulty)) →
        ∃ t, exec c s = .next t ∧
          t.bus.latest =
            some
              (.announce s.align.station .holding
                (match s.engine.run with | some r => r.target | none => epochAfter (now s) 2) 0 0 0 s.align.mode)) ∧
      (∀ (c : Instr) (interval : Nat), s.align.opState = .operating → s.align.Faults interval →
        (∀ n : Epoch,
          (c = .epochPulse interval [] ∧ n = (s.align.epoch.map (fun e => e + 1)).getD 0 ∨
            c = .markPulse interval [] ∧ n = 0) →
          ∃ t, exec c s = .next t ∧
            t.bus.latest =
              some
                (.announce s.align.station .holding
                  (match s.engine.run with | some r => r.target | none => n + 2) 0 0 0 s.align.mode)) ∧
        (∀ e, s.align.epoch = some e → s.align.mode.isSome = true → c = .epochPulse interval [.start] →
          ∃ t, exec c s = .next t ∧
            t.bus.latest = some (.announce s.align.station .holding (e + 3) 0 0 0 s.align.mode))) ∧
      (∀ (c : Instr) (interval : Nat) (r : Run), s.align.opState = .operating →
        s.align.watch = .regular → intervalRegular s.align interval = true →
        (c = .epochPulse interval [] ∨ c = .markPulse interval []) →
        ∃ t, exec c s = .next t ∧
          (s.engine.run = some r →
            t.bus.latest =
              some (.announce s.align.station .operating r.target 0 s.edge.ownSet s.edge.demand s.align.mode)) ∧
          (s.engine.run = none → t.bus.latest = s.bus.latest)) ∧
      (∀ (c : Instr) (interval : Nat), s.align.opState = .listening →
        (c = .epochPulse interval [] ∨ c = .markPulse interval []) →
        ∃ t, exec c s = .next t ∧
          t.bus.latest =
            some
              (.ability s.align.station .listening { counts := s.config.counts, edge := s.config.edgeCapable })))

/-- Within any plan no tile is covered by two grants of one direction, whatever the run's orders, snapshot and carry
set: every tile a grant covers was FREE at run start and ends TAKEN, so none lies on a CARRIED or SHADOW tile; every
other tile that was not FREE stays as it was; and the shadow tiles an entry's placement keeps clear were FREE before it
(R66). -/
def Obligations.PlacedGrantsNeverOverlap : Prop :=
  (∀ r : Run,
    (placeDownlink r).placed.Pairwise Placed.Apart ∧ (placeUplink r).placed.Pairwise Placed.Apart ∧
    (∀ p band slot, (p ∈ (placeDownlink r).placed → p.Covers band slot →
        tileAt r.dlGrid band slot = .free ∧ tileAt (placeDownlink r).grid band slot = .taken) ∧
      (p ∈ (placeUplink r).placed → p.Covers band slot →
        tileAt r.ulGrid band slot = .free ∧ tileAt (placeUplink r).grid band slot = .taken)) ∧
    (∀ band slot, tileAt r.ulGrid band slot ≠ .free →
      tileAt (placeUplink r).grid band slot = tileAt r.ulGrid band slot)) ∧
  (∀ (sn : Snapshot) (pr : Progress) (e : OrderEntry) (band slot : Nat),
    (tileAt (placeUl sn pr e).grid band slot ≠ tileAt pr.grid band slot →
      tileAt pr.grid band slot = .free ∧
        (tileAt (placeUl sn pr e).grid band slot = .taken ∨ tileAt (placeUl sn pr e).grid band slot = .shadow)) ∧
    (tileAt (placeDl sn pr e).grid band slot ≠ tileAt pr.grid band slot →
      tileAt pr.grid band slot = .free ∧ tileAt (placeDl sn pr e).grid band slot = .taken))

/-- Where a downlink entry is placed. A range of sub-bands qualifies when its 8 × w tiles are FREE, its power 8 × w ×
cost does not exceed the remaining allowance, and a step of R69 tries it: for an edge grade the ranges inside the own
set and outside the blocked set, then those outside the blocked set, ascending; for another grade those touching
neither, then from the quiet grade on those not touching the own set, then those not touching the blocked set,
descending. The first in this order is taken; new data is tried from the width of R68 downward, a redo entry at its
own width alone; the grant spans slots 0–7 and lowers the remaining allowance by its power. An entry with no range is
passed over, new data counting as unplaced (R68–R72, R77). -/
def Obligations.DownlinkEntryIsPlaced : Prop :=
  ∀ (sn : Snapshot) (pr : Progress),
    let edge := fun grade : Nat => decide (1 ≤ grade) && decide (grade ≤ sn.edgeGrade)
    let taken := fun (context : Index) (grade w f bytes : Nat) (redo : Option RedoEntry) =>
      { pr with
        grid := paint pr.grid f w 0 8 .taken
        remaining := pr.remaining - 8 * w * (gradeRow grade).cost
        placed :=
          pr.placed ++
            [{ context := context, direction := .dl, firstBand := f, width := w, firstSlot := 0, height := 8,
               grade := grade, capacity := 8 * w * (gradeRow grade).yield, bytes := bytes,
               tilePower := (gradeRow grade).cost, redo := redo, edge := edge grade, spill := [] }] }
    (∀ c : Candidate,
      let n := min 48 ((c.backlog + (gradeRow c.grade).yield - 1) / (gradeRow c.grade).yield)
      let start := (n + 7) / 8
      ((∀ w f, 1 ≤ w → w ≤ start → ¬sn.RangeQualifies pr c.grade w f) →
        placeDl sn pr (.fresh c) = { pr with unplaced := pr.unplaced + 1 }) ∧
      (∀ w f, 1 ≤ w → w ≤ start → sn.RangeFirst pr c.grade w f →
        (∀ w' f', w < w' → w' ≤ start → ¬sn.RangeQualifies pr c.grade w' f') →
        placeDl sn pr (.fresh c) =
          taken c.context c.grade w f (min c.backlog (8 * w * (gradeRow c.grade).yield)) none)) ∧
    (∀ e : RedoEntry,
      ((∀ f, ¬sn.RangeQualifies pr e.grade e.width f) → placeDl sn pr (.redo e) = pr) ∧
      (∀ f, sn.RangeFirst pr e.grade e.width f →
        placeDl sn pr (.redo e) = taken e.context e.grade e.width f e.bytes (some e)))

/-- Where an uplink entry is placed. A position is a first sub-band and a first slot; it qualifies when its tiles and
its shadow tiles of slot 7 or below are FREE, the shadow being k7 slots after a grant that ends at slot 7 and k slots
otherwise. First slots are tried downward for a subscriber with k of 1 or more and upward otherwise, sub-bands upward
within each; new data is tried from the height of R73 downward, a redo entry at its own shape alone. The grant's tiles
become TAKEN, its shadow tiles SHADOW, and its shadow slots of 8 or above its spill tiles. An entry with no position is
passed over, new data counting as unplaced, and so is a redo entry of a barred context, or of one that the snapshot
does not hold (log 31). A redo entry is at least one slot high (R53, R73–R76, R78). -/
def Obligations.UplinkEntryIsPlaced : Prop :=
  ∀ (sn : Snapshot) (pr : Progress),
    let taken := fun (q : Progress) (context : Index) (grade bytes : Nat) (redo : Option RedoEntry)
        (rtd margin w h f x : Nat) =>
      q.remaining = pr.remaining ∧ q.unplaced = pr.unplaced ∧
      (∀ band slot, tileAt q.grid band slot =
        if f ≤ band ∧ band < f + w ∧ x ≤ slot ∧ slot < x + h then .taken
        else if f ≤ band ∧ band < f + w ∧ x + h ≤ slot ∧ slot < x + h + sn.shadowBehind rtd margin h x ∧ slot < 8
        then .shadow
        else tileAt pr.grid band slot) ∧
      ∃ spill,
        q.placed =
          pr.placed ++
            [{ context := context, direction := .ul, firstBand := f, width := w, firstSlot := x, height := h,
               grade := grade, capacity := w * h * (gradeRow grade).yield, bytes := bytes, tilePower := 0,
               redo := redo, edge := false, spill := spill }] ∧
        spill.Nodup ∧
        (∀ band slot, (band, slot) ∈ spill ↔
          f ≤ band ∧ band < f + w ∧ x + h ≤ slot + 8 ∧ slot + 8 < x + h + sn.shadowBehind rtd margin h x)
    (∀ c : Candidate,
      let row := gradeRow c.grade
      let start := min 8 (((c.backlog + row.yield - 1) / row.yield + row.ulWidth - 1) / row.ulWidth)
      ((∀ h f x, 1 ≤ h → h ≤ start → ¬sn.PositionQualifies pr c.rtd c.lateMargin row.ulWidth h f x) →
        placeUl sn pr (.fresh c) = { pr with unplaced := pr.unplaced + 1 }) ∧
      (∀ h f x, 1 ≤ h → h ≤ start → sn.PositionFirst pr c.rtd c.lateMargin row.ulWidth h f x →
        (∀ h' f' x', h < h' → h' ≤ start → ¬sn.PositionQualifies pr c.rtd c.lateMargin row.ulWidth h' f' x') →
        taken (placeUl sn pr (.fresh c)) c.context c.grade (min c.backlog (row.ulWidth * h * row.yield)) none
          c.rtd c.lateMargin row.ulWidth h f x)) ∧
    (∀ e : RedoEntry, 1 ≤ e.height →
      (sn.contexts.find? (fun c => c.index == e.context) = none → placeUl sn pr (.redo e) = pr) ∧
      (∀ c, sn.contexts.find? (fun c => c.index == e.context) = some c →
        (c.ulBarred = true → placeUl sn pr (.redo e) = pr) ∧
        (c.ulBarred = false →
          ((∀ f x, ¬sn.PositionQualifies pr c.rtd c.lateMargin e.width e.height f x) →
            placeUl sn pr (.redo e) = pr) ∧
          (∀ f x, sn.PositionFirst pr c.rtd c.lateMargin e.width e.height f x →
            taken (placeUl sn pr (.redo e)) e.context e.grade e.bytes (some e) c.rtd c.lateMargin e.width e.height
              f x))))

/-- A context is a candidate of a direction exactly when it is ACTIVE with a grade of 1–15, a backlog above 0 and a
class above the floor, and for the uplink not barred (R42); its entry holds the true class, effective class 3 when S_age
is not 0 and last_served is present and lies S_age or more before the target, by the plain distance, and its class
otherwise, the metric floor(weight × y × 32,768 / (avg + 64)) and the figures of the direction (R43, R47–R49). The
metric lies within 0–552,960 for the weights of 1–15 (R49). The order of R51 goes by effective class, then metric, then
index; it is total: of two candidates with different indices exactly one is taken before the other, and the ranked list
holds exactly the candidates above the larger of the two floors, in that order (R45, R51). -/
def Obligations.CandidateOrderIsTotal : Prop :=
  (∀ (floor : Nat) (d : Direction) (c : SnapContext),
    isCandidate floor d c = true ↔
      c.state = .active ∧ floor < c.cls ∧
        match d with
        | .dl => 1 ≤ c.dlGrade ∧ c.dlGrade ≤ 15 ∧ 0 < c.dlBacklog
        | .ul => 1 ≤ c.ulGrade ∧ c.ulGrade ≤ 15 ∧ 0 < c.ulBacklog ∧ c.ulBarred = false) ∧
  (∀ (sn : Snapshot) (target : Epoch) (c : SnapContext),
    let effective := fun served : Option Epoch =>
      match served with
      | some e => if sn.ageLimit ≠ 0 ∧ sn.ageLimit ≤ (target - e).val then 3 else c.cls
      | none => c.cls
    let figure := fun grade avg : Nat =>
      c.weight * [0, 2, 4, 8, 12, 16, 20, 24, 28, 34, 40, 46, 52, 58, 64, 72].getD grade 0 * 32768 / (avg + 64)
    candidateOf sn target .dl c =
        { context := c.index, cls := c.cls, effectiveClass := effective c.lastServedDl,
          metric := figure c.dlGrade c.avgDl, grade := c.dlGrade, backlog := c.dlBacklog, rtd := c.rtd,
          lateMargin := c.lateMargin } ∧
      candidateOf sn target .ul c =
        { context := c.index, cls := c.cls, effectiveClass := effective c.lastServedUl,
          metric := figure c.ulGrade c.avgUl, grade := c.ulGrade, backlog := c.ulBacklog, rtd := c.rtd,
          lateMargin := c.lateMargin } ∧
      (c.weight ≤ 15 → ∀ d, (candidateOf sn target d c).metric ≤ 552960)) ∧
  (∀ sn : Snapshot, sn.effectiveFloor = max sn.powerFloor sn.requestedFloor) ∧
  (∀ a b : Candidate,
    rankedBefore a b = true ↔
      b.effectiveClass < a.effectiveClass ∨
        a.effectiveClass = b.effectiveClass ∧
          (b.metric < a.metric ∨ a.metric = b.metric ∧ a.context.val < b.context.val)) ∧
  (∀ a b : Candidate, a.context ≠ b.context → rankedBefore a b = !rankedBefore b a) ∧
  (∀ (sn : Snapshot) (target : Epoch) (d : Direction),
    (rankedCandidates sn target d).Perm
      ((sn.contexts.filter (isCandidate sn.effectiveFloor d)).map (candidateOf sn target d)) ∧
    ((sn.contexts.map SnapContext.index).Nodup →
      (rankedCandidates sn target d).Pairwise (fun a b => rankedBefore a b = true)))

/-! ## Figures -/

/-- The allowance is computed by the four steps of R112, and with Φ not above B it lies between Φ and B, with the
consequences the rule lists: Φ when the peers claim B or more, P_prev and the ramp step or Φ while the peers
leave more, the larger of Φ and the smaller of raw and the ramp step with P_prev 0, and B with no claims and
P_prev near it. -/
def Obligations.AllowanceLiesBetweenFloorShareAndBudget : Prop :=
  ∀ (p : Params) (pPrev claims : Nat),
    let raw : Int := max 0 ((p.budget : Int) - claims)
    let result := allowanceOf p pPrev claims
    (result : Int) = min (max (min raw (pPrev + p.rampStep)) p.floorShare) p.budget ∧
    (p.floorShare ≤ p.budget →
      p.floorShare ≤ result ∧ result ≤ p.budget ∧
      (p.budget ≤ claims → result = p.floorShare) ∧
      (((pPrev : Int) + p.rampStep ≤ raw) → result = max (pPrev + p.rampStep) p.floorShare) ∧
      (pPrev = 0 → (result : Int) = max (p.floorShare : Int) (min raw p.rampStep)) ∧
      (claims = 0 → p.budget ≤ pPrev + p.rampStep → result = p.budget)) ∧
    (pPrev ≤ 4095 → p.rampStep ≤ 1024 → pPrev + p.rampStep ≤ 5119)

/-! ## The site bus (chapter 8) -/

/-- 16 µs of idle line with a frame WAITING draw a deferral (4 steps of the generator at attempt 1, 5 after it) or
keep the units an interruption left; a count of 0 begins the attempt with the epoch written in; an expired
deferral begins it; an interrupted one goes back to WAITING and keeps what remains (R133, R135). One step of the
generator moves every bit towards position 0 and puts the exclusive-or of positions 0, 2, 3 and 5 in position 15; a
draw takes the bits shifted out, first as the most significant (R137). The idle line is also what the idle watch sees,
with or without a frame due (R139, R141; log 17), and that it ends the remainder of a frame that is not taken is the
model's choice of log 33; the fields that hold the two, the kept units and the epoch written in are log 6. -/
def Obligations.BusAccess : Prop :=
  (∀ s : State, s.pulse.pending = false → s.align.opState ≠ .unconfigured →
    (s.bus.access = .waiting →
      let draw := drawBits (if s.bus.attempt = 1 then 4 else 5) s.bus.generator 0
      let units := if s.bus.keepsUnits then s.bus.units else draw.2
      let generator := if s.bus.keepsUnits then s.bus.generator else draw.1
      exec .busIdleDetected s =
        .next
          { s with
            bus :=
              if units = 0 then
                { s.bus with
                  idleSeen := true, midFrame := false, generator := generator, access := .sending, units := 0,
                  keepsUnits := false, airEpoch := epochField s.align.epoch }
              else
                { s.bus with
                  idleSeen := true, midFrame := false, generator := generator, access := .deferring, units := units,
                  keepsUnits := false } }) ∧
    ((s.bus.access = .empty ∨ s.bus.access = .deferring) →
      exec .busIdleDetected s = .next { s with bus := { s.bus with idleSeen := true, midFrame := false } }) ∧
    (s.bus.access = .deferring →
      exec .deferralExpired s =
        .next
          { s with
            bus :=
              { s.bus with
                access := .sending, units := 0, keepsUnits := false, airEpoch := epochField s.align.epoch } } ∧
      ∀ elapsed, elapsed < s.bus.units →
        exec (.deferralInterrupted elapsed) s =
          .next
            { s with
              bus := { s.bus with access := .waiting, units := s.bus.units - elapsed, keepsUnits := true } })) ∧
  (∀ r : BitVec 16,
    (∀ k, k < 15 → (generatorStep r).getLsbD k = r.getLsbD (k + 1)) ∧
    (generatorStep r).getLsbD 15 = (r.getLsbD 0 ^^ r.getLsbD 2 ^^ r.getLsbD 3 ^^ r.getLsbD 5) ∧
    (let g := generatorStep
     let out := fun x : BitVec 16 => (x.getLsbD 0).toNat
     drawBits 4 r 0 = (g (g (g (g r))), 8 * out r + 4 * out (g r) + 2 * out (g (g r)) + out (g (g (g r)))) ∧
     drawBits 5 r 0 =
       (g (g (g (g (g r)))),
        16 * out r + 8 * out (g r) + 4 * out (g (g r)) + 2 * out (g (g (g r))) + out (g (g (g (g r)))))))

/-- The outcome of an attempt: read back unchanged it has sent its frame; a mismatch counts one collision and, with no
newer frame and no REALIGN taken during the attempt, retries below attempt 4 and abandons the frame at attempt 4 with
one unsent frame counted; with a newer frame, which is due next with attempt 1, or after a REALIGN, which leaves no
frame due, the frame is discarded and not counted as unsent (R134, R136, R140). The attempt number once no frame is due
is log 42, and the mark of a collision that a frame in progress is not taken is log 33; the fields newer, noRetry and
lastSent are log 6. -/
def Obligations.BusAttemptOutcomes : Prop :=
  ∀ s : State, s.pulse.pending = false → s.bus.access = .sending →
    let next := fun (b : BusPort) =>
      match s.bus.newer with
      | some f =>
        { b with
          due := some f, access := .waiting, attempt := 1, units := 0, keepsUnits := false, newer := none,
          noRetry := false }
      | none =>
        { b with
          due := none, access := .empty, attempt := 1, units := 0, keepsUnits := false, newer := none,
          noRetry := false }
    let stopped := { s.bus with midFrame := true }
    (∀ f, s.bus.due = some f →
      exec .frameSent s = .next { s with bus := next { s.bus with lastSent := some (f, s.bus.airEpoch) } }) ∧
    (s.bus.newer.isSome = true ∨ s.bus.noRetry = true →
      exec .collision s = .next { advance .collisions 1 s with bus := next stopped }) ∧
    (s.bus.newer = none → s.bus.noRetry = false → s.bus.attempt < 4 →
      exec .collision s =
        .next
          { advance .collisions 1 s with
            bus :=
              { stopped with
                access := .waiting, attempt := s.bus.attempt + 1, units := 0, keepsUnits := false } }) ∧
    (s.bus.newer = none → s.bus.noRetry = false → 4 ≤ s.bus.attempt →
      exec .collision s = .next (advance .unsentFrames 1 { advance .collisions 1 s with bus := next stopped }))

/-- BUS_JABBER sets its event with the own station as subject, discards the due frame as unsent and enters the cut-off
state; from then on a frame that becomes due is discarded and counted (R138). That one unsent frame is counted even with
a newer frame behind, and that a second BUS_JABBER changes nothing, is log 15; that BUS_JABBER is set before the counter
advances is the model's choice of log 38, the attempt number once no frame is due that of log 42, and the mark of a
frame in progress that of log 33; the fields newer, noRetry and keepsUnits are log 6. -/
def Obligations.JabberCutsTheTransmitterOff : Prop :=
  ∀ s : State, s.pulse.pending = false →
    (s.bus.cutOff = true →
      exec .busJabber s = .next s ∧ ∀ f, frameDue f s = advance .unsentFrames 1 s) ∧
    (s.bus.cutOff = false →
      ∃ t : State,
        exec .busJabber s = .next t ∧ t.bus.cutOff = true ∧ t.bus.due = none ∧ t.bus.access = .empty ∧
        t.bus.generator = s.bus.generator ∧ t.events.flag .busJabber = true ∧
        t.events.counter .unsentFrames =
          (if s.bus.due.isSome then min 65535 (s.events.counter .unsentFrames + 1)
          else s.events.counter .unsentFrames) ∧
        (let flagged := setEvent .busJabber s.align.station.val .none s
         let counted := if s.bus.due.isSome then advance .unsentFrames 1 flagged else flagged
         t.events = counted.events ∧ t.link = counted.link) ∧
        t.bus =
          { s.bus with
            due := none, access := .empty, attempt := 1, units := 0, keepsUnits := false, newer := none,
            noRetry := false, cutOff := true, midFrame := decide (s.align.opState ≠ .unconfigured) } ∧
        t = { s with bus := t.bus, events := t.events, link := t.link })

/-- A valid frame from another station makes its record PRESENT with silence count 0: an ANNOUNCE writes claim, set and
demand within their ranges, an ABILITY the ability word; a misaligned or incompatible flag that passes from no to yes
sets its event; the settle count becomes 0 for a record that was ABSENT (log 40) or a changed word; the other records
keep. A frame with the own station sets DUPLICATE_STATION alone. Bytes that fail the tests are counted and set BUS_CRC.
In UNCONFIGURED and while SENDING nothing is heard, and after a collision or cut-off the remainder of a frame is not
taken (log 33). A frame taken while a pulse's work remains finds a passage to ABSENT that its ageing made due already
done: an ABILITY then leaves claim and set empty (R139, R141, R142, R144–R148, R180). That the count of a bad frame
comes before BUS_CRC is the model's choice of log 38, and the operand that says a pulse came in between that of log 18;
that a frame shows the idle watch idle line is log 17. -/
def Obligations.FramesHeard : Prop :=
  ∀ s : State,
    let hears := s.align.opState ≠ .unconfigured ∧ s.bus.access ≠ .sending
    let seen := { s with bus := { s.bus with idleSeen := true, midFrame := false } }
    let wrong := fun (own : Option Epoch) (w : BitVec 16) (before : Bool) =>
      match own with
      | some e => if w = 65535#16 then before else decide (e.val ≠ w.toNat % 1024)
      | none => before
    let passes := fun j : Station =>
      s.pulse.pending = true ∧ (s.peers.records.get j).state ≠ .absent ∧ 64 ≤ (s.peers.records.get j).silence
    let absented := fun (t : State) (j : Station) =>
      t.events.flag .peerAbsent = true ∧ t.peers.settle = 0 ∧ (t.peers.records.get j).state = .present ∧
        (t.peers.records.get j).silence = 0
    (¬hears →
      (s.pulse.pending = false → exec .busIdleDetected s = .next s) ∧
      (∀ f across, exec (.announceReceived f across) s = .next s) ∧
      (∀ f across, exec (.abilityReceived f across) s = .next s) ∧
      (∀ bytes partialByte, exec (.busCrc bytes partialByte) s = .next s)) ∧
    (hears → s.bus.midFrame = true →
      (∀ f across, exec (.announceReceived f across) s = .next seen) ∧
      (∀ f across, exec (.abilityReceived f across) s = .next seen) ∧
      (∀ bytes partialByte, exec (.busCrc bytes partialByte) s = .next seen)) ∧
    (hears → s.bus.midFrame = false →
      (∀ (f : AnnounceFrame) (across : Bool), f.station = s.align.station →
        exec (.announceReceived f across) s =
          .next (setEvent .duplicateStation s.align.station.val .none seen)) ∧
      (∀ (f : AbilityFrame) (across : Bool), f.station = s.align.station →
        exec (.abilityReceived f across) s =
          .next (setEvent .duplicateStation s.align.station.val .none seen)) ∧
      (∀ (bytes : List Byte) (partialByte : Bool), readFrame bytes partialByte = none →
        exec (.busCrc bytes partialByte) s =
          .next (setEvent .busCrc (epochField s.align.epoch) .none (advance .busCrc 1 seen))) ∧
      (∀ (f : AnnounceFrame) (across : Bool), f.station ≠ s.align.station → ¬passes f.station →
        let p := s.peers.records.get f.station
        let misaligned := wrong (if across then s.align.lastEpoch else s.align.epoch) f.epoch p.misaligned
        let mismatch :=
          if s.align.opState = .operating ∨ s.align.opState = .holding then
            decide (s.align.mode ≠ frameMode f.modeCode f.modeEdge)
          else p.mismatch
        ∃ t : State,
          exec (.announceReceived f across) s = .next t ∧
          t.peers.records.get f.station =
            { p with
              state := .present, silence := 0, claim := min 4095 f.claim.toNat, reserved := f.reserved,
              demand := min 192 f.demand.toNat, misaligned := misaligned, mismatch := mismatch } ∧
          (∀ j, j ≠ f.station → t.peers.records.get j = s.peers.records.get j) ∧
          t.peers.settle = (if p.state = .absent then 0 else s.peers.settle) ∧
          (∀ k, t.events.flag k =
            (s.events.flag k || (decide (k = .peerMisaligned) && misaligned && !p.misaligned) ||
              (decide (k = .peerIncompatible) && mismatch && !p.mismatch && !p.excluded))) ∧
          t = { seen with peers := t.peers, events := t.events, link := t.link } ∧
          t.events.counters = s.events.counters) ∧
      (∀ (f : AbilityFrame) (across : Bool), f.station ≠ s.align.station → ¬passes f.station →
        let p := s.peers.records.get f.station
        let word : Ability := { counts := ⟨f.c12, f.c16, f.c24⟩, edge := f.edge }
        let misaligned := wrong (if across then s.align.lastEpoch else s.align.epoch) f.epoch p.misaligned
        ∃ t : State,
          exec (.abilityReceived f across) s = .next t ∧
          t.peers.records.get f.station =
            { p with state := .present, silence := 0, ability := some word, misaligned := misaligned } ∧
          (∀ j, j ≠ f.station → t.peers.records.get j = s.peers.records.get j) ∧
          t.peers.settle = (if p.state = .absent ∨ p.ability ≠ some word then 0 else s.peers.settle) ∧
          (∀ k, t.events.flag k =
            (s.events.flag k || (decide (k = .peerMisaligned) && misaligned && !p.misaligned))) ∧
          t = { seen with peers := t.peers, events := t.events, link := t.link } ∧
          t.events.counters = s.events.counters) ∧
      (∀ (f : AnnounceFrame) (across : Bool), f.station ≠ s.align.station → passes f.station →
        ∃ t : State,
          exec (.announceReceived f across) s = .next t ∧ absented t f.station ∧
          (t.peers.records.get f.station).claim = min 4095 f.claim.toNat ∧
          (t.peers.records.get f.station).ability = none) ∧
      (∀ (f : AbilityFrame) (across : Bool), f.station ≠ s.align.station → passes f.station →
        ∃ t : State,
          exec (.abilityReceived f across) s = .next t ∧ absented t f.station ∧
          (t.peers.records.get f.station).claim = 0 ∧ (t.peers.records.get f.station).reserved = 0))

/-- ENCODING. The frame one part sends, written out as the formats lay it out, is the frame another part reads, with
every field at the value sent (R133, R141, R171, R179). That the operating state is sent by the numbers of the STATUS
body (R178) is DEDUCED (log 53). -/
def Obligations.FrameBytesAreReadAsTheFrame : Prop :=
  (∀ (epoch : BitVec 16) (station : Station) (op : OpState) (target : Epoch) (claim : BitVec 16)
      (reserved : SubBands) (demand : Byte) (mode : Option Mode),
    ∃ f : AnnounceFrame,
      readFrame (frameBytes epoch.toNat (.announce station op target claim.toNat reserved demand.toNat mode)) false =
        some (.announce f) ∧
      f.station = station ∧ f.opState.toNat = op.num ∧ f.epoch = epoch ∧ f.target.toNat = target.val ∧
      f.claim = claim ∧ f.reserved = reserved ∧ f.demand = demand ∧ frameMode f.modeCode f.modeEdge = mode) ∧
  (∀ (epoch : BitVec 16) (station : Station) (op : OpState) (word : Ability),
    ∃ f : AbilityFrame,
      readFrame (frameBytes epoch.toNat (.ability station op word)) false = some (.ability f) ∧
      f.station = station ∧ f.opState.toNat = op.num ∧ f.epoch = epoch ∧
      ({ counts := ⟨f.c12, f.c16, f.c24⟩, edge := f.edge } : Ability) = word)

/-! ## The tracking state -/

/-- Every command but RUN_COMPLETION keeps outstanding of each context at the number of OGT entries that name it, keeps
the tags of the OGT, of the origins it stores and of the Redo List distinct, keeps the redo entries of a run apart from
the OGT, and adds no tag to the OGT. A completion whose target no OGT tag carries adds at most 32 entries, all of its
target with plan indices below 32, and keeps the count and the OGT's tags distinct; where no origin carries the target
either, it keeps the tags of OGT, stored origins and Redo List distinct together, the origins of the redo grants it
delivers passing from the Redo List to the OGT. Entries of eleven successive targets with such tags are at most 352
(R19, R80, R93, R98). -/
def Obligations.TrackingStaysConsistent : Prop :=
  (∀ (c : Instr) (s t : State), c ≠ .runCompletion → s.OutstandingCounts → s.TagsDistinct → exec c s = .next t →
    t.OutstandingCounts ∧ t.TagsDistinct ∧ (s.RunRedoFresh → t.RunRedoFresh) ∧
      t.tracking.ogt.length ≤ s.tracking.ogt.length ∧
      ∀ g ∈ t.tracking.ogt, ∃ h ∈ s.tracking.ogt, h.tag = g.tag ∧ h.context = g.context) ∧
  (∀ (r : Run) (s t : State), s.pulse.pending = false → s.engine.run = some r → exec .runCompletion s = .next t →
    (∀ i, (ctx s i).outstanding = (s.tracking.ogt.filter fun g => g.context == i).length) →
    (s.tracking.ogt.map OgtEntry.tag).Nodup → (∀ g ∈ s.tracking.ogt, g.tag.epoch ≠ r.target) →
    (∀ i, (ctx t i).outstanding = (t.tracking.ogt.filter fun g => g.context == i).length) ∧
      (t.tracking.ogt.map OgtEntry.tag).Nodup ∧ t.tracking.ogt.length ≤ s.tracking.ogt.length + 32 ∧
      (∀ g ∈ t.tracking.ogt, g ∈ s.tracking.ogt ∨ (g.tag.epoch = r.target ∧ g.tag.index < 32)) ∧
      (s.RunRedoFresh → t.RunRedoFresh) ∧
      (s.TagsDistinct → s.RunRedoFresh →
        (∀ tag ∈
          r.redoOrigins ++ s.tracking.redo.map RedoEntry.origin ++
            (s.tracking.ogt.filterMap OgtEntry.origin).map RedoOrigin.tag,
          tag.epoch ≠ r.target) →
        t.TagsDistinct ∧
          ∀ tag ∈ s.tracking.redo.map RedoEntry.origin, tag ∈ t.tracking.redo.map RedoEntry.origin ∨
            tag ∈ (t.tracking.ogt.filterMap OgtEntry.origin).map RedoOrigin.tag)) ∧
  (∀ (first : Epoch) (l : List OgtEntry), (l.map OgtEntry.tag).Nodup →
    (∀ g ∈ l, g.tag.index < 32 ∧ (g.tag.epoch - first).val ≤ 10) → l.length ≤ 352)

/-! ## Laws that every step keeps -/

/-- State.reset is a safe state: it meets every law below (the station it is strapped with is log 1's choice, and the
configured values it holds, which some laws read, are log 2's). -/
def Obligations.ResetIsSafe : Prop := State.reset.Safe

/-- Every step keeps ALERT and READY at what the flags and the FIFO make of them, and the FIFO at 64 records or
fewer (R161, R167). -/
def Obligations.StepKeepsLinesFollowing : Prop :=
  ∀ s t : State, s.LinesFollow → step s = .next t → t.LinesFollow

/-- Every step keeps the outbound queue at 32 records or fewer and the Redo List at 48 entries or fewer, every
counter within 0–65,535 and the remainder within 0–63, every backlog and average within 0–1,048,575, and the
number of contexts that are not FREE at N_max or fewer (R8, R55, R98, R163, R169). -/
def Obligations.StepKeepsBounds : Prop :=
  ∀ s t : State, step s = .next t →
    (s.StoresBounded → t.StoresBounded) ∧ (s.CountersBounded → t.CountersBounded) ∧
      (s.FiguresBounded → t.FiguresBounded) ∧ (s.AttachedBounded → t.AttachedBounded)

/-- Every step keeps an allowance that is held between Φ and B (R108, R112). -/
def Obligations.StepKeepsAllowanceBounded : Prop :=
  ∀ s t : State, s.AllowanceBounded → step s = .next t → t.AllowanceBounded

/-- Every step keeps runs to OPERATING with each context once in their snapshot, the Batch Ring, the OGT and the Redo
List empty outside OPERATING and HOLDING, and the own reservation set empty outside OPERATING with edge coordination on
(R60, R64, R85, R105, R128). -/
def Obligations.StepKeepsOperatingLaws : Prop :=
  ∀ s t : State, step s = .next t →
    (s.PlansOnlyWhenOperating → t.PlansOnlyWhenOperating) ∧ (s.EdgeOnlyWhenOperating → t.EdgeOnlyWhenOperating) ∧
      (s.SnapshotDistinct → t.SnapshotDistinct)

/-- Every step keeps the record at the part's own station number ABSENT (R143). -/
def Obligations.StepKeepsOwnPeerAbsent : Prop :=
  ∀ s t : State, s.OwnPeerAbsent → step s = .next t → t.OwnPeerAbsent

/-- Every step keeps each SENT batch record at its target's position in the Batch Ring (R86). -/
def Obligations.StepKeepsRingPlaced : Prop :=
  ∀ s t : State, s.RingPlaced → step s = .next t → t.RingPlaced

/-- Every step keeps the Redo List in deadline order, equal deadlines in creation order, from a state in which the
epochs compared lie within 200 of the current one, as R100 says they do (R98, R100). -/
def Obligations.StepKeepsRedoOrdered : Prop :=
  ∀ s t : State, s.RedoEpochsNear → s.RedoOrdered → step s = .next t → t.RedoOrdered
end

