-- ==== Sys2Proof/Laws/Tables.lean ====
section
/-!
SUPPORT. The laws of a fixed-size table: a read after a write, the length, and folds that keep a part of their state.
-/
namespace Sys2Proof

/-- A write is read back at its position. -/
@[simp] theorem Table.get_set_self {α : Type} {n : Nat} (t : Table α n) (i : Fin n) (a : α) :
    (t.set i a).get i = a := by
  simp [Table.get, Table.set]

/-- A write leaves every other position alone. -/
theorem Table.get_set_ne {α : Type} {n : Nat} (t : Table α n) {i j : Fin n} (a : α) (h : j ≠ i) :
    (t.set i a).get j = t.get j := by
  have : i.val ≠ j.val := fun e => h (Fin.ext e.symm)
  simp [Table.get, Table.set, List.getElem_set_ne this]

/-- A read after a write at any position. -/
theorem Table.get_set {α : Type} {n : Nat} (t : Table α n) (i j : Fin n) (a : α) :
    (t.set i a).get j = if j = i then a else t.get j := by
  by_cases h : j = i
  · subst h; simp
  · simp [h, Table.get_set_ne t a h]

/-- The later of two writes at one position stands. -/
@[simp] theorem Table.set_set {α : Type} {n : Nat} (t : Table α n) (i : Fin n) (a b : α) :
    (t.set i a).set i b = t.set i b := by
  simp [Table.set]

/-- Every record of a filled table is the filling. -/
@[simp] theorem Table.get_fill {α : Type} {n : Nat} (a : α) (i : Fin n) : (Table.fill n a).get i = a := by
  simp [Table.get, Table.fill]

/-- A mapped table holds the mapped records. -/
@[simp] theorem Table.get_map {α : Type} {n : Nat} (t : Table α n) (f : α → α) (i : Fin n) :
    (t.map f).get i = f (t.get i) := by
  simp [Table.get, Table.map]

/-- A table mapped with positions holds the mapped records. -/
@[simp] theorem Table.get_mapWith {α : Type} {n : Nat} (t : Table α n) (f : Fin n → α → α) (i : Fin n) :
    (t.mapWith f).get i = f i (t.get i) := by
  simp [Table.get, Table.mapWith]

/-- Two tables with the same records are the same table. -/
theorem Table.ext_get {α : Type} {n : Nat} {t u : Table α n} (h : ∀ i, t.get i = u.get i) : t = u := by
  obtain ⟨l, hl⟩ := t
  obtain ⟨m, hm⟩ := u
  have : l = m := List.ext_getElem (by omega) fun k hk _ => h ⟨k, by omega⟩
  subst this
  rfl

/-- A position is listed exactly when its record satisfies the test. -/
theorem Table.mem_positions {α : Type} {n : Nat} (t : Table α n) (p : α → Bool) (i : Fin n) :
    i ∈ t.positions p ↔ p (t.get i) = true := by
  have hz : ∀ k (hk : k < n), ((List.finRange n).zip t.list)[k]'(by simp [t.size, hk]) = (⟨k, hk⟩, t.get ⟨k, hk⟩) := by
    intro k hk
    simp [Table.get]
  constructor
  · intro h
    simp only [Table.positions, List.mem_filterMap] at h
    obtain ⟨⟨j, a⟩, hm, he⟩ := h
    obtain ⟨k, hk, hg⟩ := List.getElem_of_mem hm
    have hkn : k < n := by simpa [t.size] using hk
    rw [hz k hkn] at hg
    cases hg
    by_cases hp : p (t.get ⟨k, hkn⟩) = true
    · simp [hp] at he; rw [← he]; exact hp
    · simp [hp] at he
  · intro h
    simp only [Table.positions, List.mem_filterMap]
    refine ⟨(i, t.get i), ?_, by simp [h]⟩
    have := hz i.val i.isLt
    exact this ▸ List.getElem_mem _

/-- A fold whose every step keeps `g` keeps `g`. -/
theorem foldl_keep {α β γ : Type} (g : β → γ) (f : β → α → β) (h : ∀ b a, g (f b a) = g b) (l : List α) (b : β) :
    g (l.foldl f b) = g b := by
  induction l generalizing b with
  | nil => rfl
  | cons x xs ih => rw [List.foldl_cons, ih, h]

/-- A fold whose every step keeps `p` keeps `p`. -/
theorem foldl_invariant {α β : Type} (p : β → Prop) (f : β → α → β) (h : ∀ b a, p b → p (f b a)) (l : List α) {b : β}
    (hb : p b) : p (l.foldl f b) := by
  induction l generalizing b with
  | nil => exact hb
  | cons x xs ih => exact ih (h b x hb)

end Sys2Proof
end

