-- ==== Sys2Proof/Laws/State.lean ====
section
/-!
SUPPORT. What each update of the state leaves as it was, field by field, and what it writes.
-/
namespace Sys2Proof.Machine

/-! ## What each update keeps -/

@[simp] theorem setCtx_keeps (i : Index) (c : Context) (s : State) :
    (setCtx i c s).pending = s.pending ∧ (setCtx i c s).engine = s.engine ∧ (setCtx i c s).tracking = s.tracking ∧
    (setCtx i c s).power = s.power ∧ (setCtx i c s).edge = s.edge ∧ (setCtx i c s).bus = s.bus ∧
    (setCtx i c s).peers = s.peers ∧ (setCtx i c s).align = s.align ∧ (setCtx i c s).config = s.config ∧
    (setCtx i c s).link = s.link ∧ (setCtx i c s).events = s.events ∧ (setCtx i c s).pulse = s.pulse ∧
    (setCtx i c s).freeValues = s.freeValues :=
  ⟨rfl, rfl, rfl, rfl, rfl, rfl, rfl, rfl, rfl, rfl, rfl, rfl, rfl⟩

@[simp] theorem setRedo_keeps (l : List RedoEntry) (s : State) :
    (setRedo l s).pending = s.pending ∧ (setRedo l s).contexts = s.contexts ∧ (setRedo l s).engine = s.engine ∧
    (setRedo l s).power = s.power ∧ (setRedo l s).edge = s.edge ∧ (setRedo l s).bus = s.bus ∧
    (setRedo l s).peers = s.peers ∧ (setRedo l s).align = s.align ∧ (setRedo l s).config = s.config ∧
    (setRedo l s).link = s.link ∧ (setRedo l s).events = s.events ∧ (setRedo l s).pulse = s.pulse ∧
    (setRedo l s).freeValues = s.freeValues :=
  ⟨rfl, rfl, rfl, rfl, rfl, rfl, rfl, rfl, rfl, rfl, rfl, rfl, rfl⟩

@[simp] theorem setOgt_keeps (l : List OgtEntry) (s : State) :
    (setOgt l s).pending = s.pending ∧ (setOgt l s).contexts = s.contexts ∧ (setOgt l s).engine = s.engine ∧
    (setOgt l s).power = s.power ∧ (setOgt l s).edge = s.edge ∧ (setOgt l s).bus = s.bus ∧
    (setOgt l s).peers = s.peers ∧ (setOgt l s).align = s.align ∧ (setOgt l s).config = s.config ∧
    (setOgt l s).link = s.link ∧ (setOgt l s).events = s.events ∧ (setOgt l s).pulse = s.pulse ∧
    (setOgt l s).freeValues = s.freeValues :=
  ⟨rfl, rfl, rfl, rfl, rfl, rfl, rfl, rfl, rfl, rfl, rfl, rfl, rfl⟩

@[simp] theorem removeGrant_keeps (t : Tag) (s : State) :
    (removeGrant t s).pending = s.pending ∧ (removeGrant t s).contexts = s.contexts ∧
    (removeGrant t s).engine = s.engine ∧ (removeGrant t s).power = s.power ∧ (removeGrant t s).edge = s.edge ∧
    (removeGrant t s).bus = s.bus ∧ (removeGrant t s).peers = s.peers ∧ (removeGrant t s).align = s.align ∧
    (removeGrant t s).config = s.config ∧ (removeGrant t s).link = s.link ∧ (removeGrant t s).events = s.events ∧
    (removeGrant t s).pulse = s.pulse ∧ (removeGrant t s).freeValues = s.freeValues :=
  ⟨rfl, rfl, rfl, rfl, rfl, rfl, rfl, rfl, rfl, rfl, rfl, rfl, rfl⟩

@[simp] theorem setBatch_keeps (e : Epoch) (st : BatchStatus) (s : State) :
    (setBatch e st s).pending = s.pending ∧ (setBatch e st s).contexts = s.contexts ∧
    (setBatch e st s).engine = s.engine ∧ (setBatch e st s).power = s.power ∧ (setBatch e st s).edge = s.edge ∧
    (setBatch e st s).bus = s.bus ∧ (setBatch e st s).peers = s.peers ∧ (setBatch e st s).align = s.align ∧
    (setBatch e st s).config = s.config ∧ (setBatch e st s).link = s.link ∧ (setBatch e st s).events = s.events ∧
    (setBatch e st s).pulse = s.pulse ∧ (setBatch e st s).freeValues = s.freeValues :=
  ⟨rfl, rfl, rfl, rfl, rfl, rfl, rfl, rfl, rfl, rfl, rfl, rfl, rfl⟩

@[simp] theorem restateTracking_keeps (p : Epoch) (s : State) :
    (restateTracking p s).pending = s.pending ∧ (restateTracking p s).contexts = s.contexts ∧
    (restateTracking p s).engine = s.engine ∧ (restateTracking p s).power = s.power ∧
    (restateTracking p s).edge = s.edge ∧ (restateTracking p s).bus = s.bus ∧
    (restateTracking p s).peers = s.peers ∧ (restateTracking p s).align = s.align ∧
    (restateTracking p s).config = s.config ∧ (restateTracking p s).link = s.link ∧
    (restateTracking p s).events = s.events ∧ (restateTracking p s).pulse = s.pulse ∧
    (restateTracking p s).freeValues = s.freeValues :=
  ⟨rfl, rfl, rfl, rfl, rfl, rfl, rfl, rfl, rfl, rfl, rfl, rfl, rfl⟩

@[simp] theorem emptyCarry_keeps (s : State) :
    (emptyCarry s).pending = s.pending ∧ (emptyCarry s).contexts = s.contexts ∧
    (emptyCarry s).tracking = s.tracking ∧ (emptyCarry s).power = s.power ∧ (emptyCarry s).edge = s.edge ∧
    (emptyCarry s).bus = s.bus ∧ (emptyCarry s).peers = s.peers ∧ (emptyCarry s).align = s.align ∧
    (emptyCarry s).config = s.config ∧ (emptyCarry s).link = s.link ∧ (emptyCarry s).events = s.events ∧
    (emptyCarry s).pulse = s.pulse ∧ (emptyCarry s).freeValues = s.freeValues :=
  ⟨rfl, rfl, rfl, rfl, rfl, rfl, rfl, rfl, rfl, rfl, rfl, rfl, rfl⟩

@[simp] theorem discardRun_keeps (s : State) :
    (discardRun s).pending = s.pending ∧ (discardRun s).contexts = s.contexts ∧
    (discardRun s).tracking = s.tracking ∧ (discardRun s).power = s.power ∧ (discardRun s).edge = s.edge ∧
    (discardRun s).bus = s.bus ∧ (discardRun s).peers = s.peers ∧ (discardRun s).align = s.align ∧
    (discardRun s).config = s.config ∧ (discardRun s).link = s.link ∧ (discardRun s).events = s.events ∧
    (discardRun s).pulse = s.pulse ∧ (discardRun s).freeValues = s.freeValues :=
  ⟨rfl, rfl, rfl, rfl, rfl, rfl, rfl, rfl, rfl, rfl, rfl, rfl, rfl⟩

@[simp] theorem setRequestedFloor_keeps (n : Nat) (s : State) :
    (setRequestedFloor n s).pending = s.pending ∧ (setRequestedFloor n s).contexts = s.contexts ∧
    (setRequestedFloor n s).tracking = s.tracking ∧ (setRequestedFloor n s).power = s.power ∧
    (setRequestedFloor n s).edge = s.edge ∧ (setRequestedFloor n s).bus = s.bus ∧
    (setRequestedFloor n s).peers = s.peers ∧ (setRequestedFloor n s).align = s.align ∧
    (setRequestedFloor n s).config = s.config ∧ (setRequestedFloor n s).link = s.link ∧
    (setRequestedFloor n s).events = s.events ∧ (setRequestedFloor n s).pulse = s.pulse ∧
    (setRequestedFloor n s).freeValues = s.freeValues :=
  ⟨rfl, rfl, rfl, rfl, rfl, rfl, rfl, rfl, rfl, rfl, rfl, rfl, rfl⟩

@[simp] theorem setPrev_keeps (n : Nat) (s : State) :
    (setPrev n s).pending = s.pending ∧ (setPrev n s).contexts = s.contexts ∧ (setPrev n s).engine = s.engine ∧
    (setPrev n s).tracking = s.tracking ∧ (setPrev n s).edge = s.edge ∧ (setPrev n s).bus = s.bus ∧
    (setPrev n s).peers = s.peers ∧ (setPrev n s).align = s.align ∧ (setPrev n s).config = s.config ∧
    (setPrev n s).link = s.link ∧ (setPrev n s).events = s.events ∧ (setPrev n s).pulse = s.pulse ∧
    (setPrev n s).freeValues = s.freeValues :=
  ⟨rfl, rfl, rfl, rfl, rfl, rfl, rfl, rfl, rfl, rfl, rfl, rfl, rfl⟩

@[simp] theorem updateEdge_keeps (s : State) :
    (updateEdge s).pending = s.pending ∧ (updateEdge s).contexts = s.contexts ∧ (updateEdge s).engine = s.engine ∧
    (updateEdge s).tracking = s.tracking ∧ (updateEdge s).power = s.power ∧ (updateEdge s).bus = s.bus ∧
    (updateEdge s).peers = s.peers ∧ (updateEdge s).align = s.align ∧ (updateEdge s).config = s.config ∧
    (updateEdge s).link = s.link ∧ (updateEdge s).events = s.events ∧ (updateEdge s).pulse = s.pulse ∧
    (updateEdge s).freeValues = s.freeValues :=
  ⟨rfl, rfl, rfl, rfl, rfl, rfl, rfl, rfl, rfl, rfl, rfl, rfl, rfl⟩

@[simp] theorem expireHoldDown_keeps (n : Epoch) (s : State) :
    (expireHoldDown n s).pending = s.pending ∧ (expireHoldDown n s).contexts = s.contexts ∧
    (expireHoldDown n s).engine = s.engine ∧ (expireHoldDown n s).tracking = s.tracking ∧
    (expireHoldDown n s).power = s.power ∧ (expireHoldDown n s).bus = s.bus ∧
    (expireHoldDown n s).peers = s.peers ∧ (expireHoldDown n s).align = s.align ∧
    (expireHoldDown n s).config = s.config ∧ (expireHoldDown n s).link = s.link ∧
    (expireHoldDown n s).events = s.events ∧ (expireHoldDown n s).pulse = s.pulse ∧
    (expireHoldDown n s).freeValues = s.freeValues :=
  ⟨rfl, rfl, rfl, rfl, rfl, rfl, rfl, rfl, rfl, rfl, rfl, rfl, rfl⟩

@[simp] theorem restateEdge_keeps (p : Epoch) (s : State) :
    (restateEdge p s).pending = s.pending ∧ (restateEdge p s).contexts = s.contexts ∧
    (restateEdge p s).engine = s.engine ∧ (restateEdge p s).tracking = s.tracking ∧
    (restateEdge p s).power = s.power ∧ (restateEdge p s).bus = s.bus ∧ (restateEdge p s).peers = s.peers ∧
    (restateEdge p s).align = s.align ∧ (restateEdge p s).config = s.config ∧ (restateEdge p s).link = s.link ∧
    (restateEdge p s).events = s.events ∧ (restateEdge p s).pulse = s.pulse ∧
    (restateEdge p s).freeValues = s.freeValues :=
  ⟨rfl, rfl, rfl, rfl, rfl, rfl, rfl, rfl, rfl, rfl, rfl, rfl, rfl⟩

@[simp] theorem setWatch_keeps (w : WatchState) (s : State) :
    (setWatch w s).pending = s.pending ∧ (setWatch w s).contexts = s.contexts ∧ (setWatch w s).engine = s.engine ∧
    (setWatch w s).tracking = s.tracking ∧ (setWatch w s).power = s.power ∧ (setWatch w s).edge = s.edge ∧
    (setWatch w s).bus = s.bus ∧ (setWatch w s).peers = s.peers ∧ (setWatch w s).config = s.config ∧
    (setWatch w s).link = s.link ∧ (setWatch w s).events = s.events ∧ (setWatch w s).pulse = s.pulse ∧
    (setWatch w s).freeValues = s.freeValues :=
  ⟨rfl, rfl, rfl, rfl, rfl, rfl, rfl, rfl, rfl, rfl, rfl, rfl, rfl⟩

@[simp] theorem setPeer_keeps (j : Station) (p : Peer) (s : State) :
    (setPeer j p s).pending = s.pending ∧ (setPeer j p s).contexts = s.contexts ∧
    (setPeer j p s).engine = s.engine ∧ (setPeer j p s).tracking = s.tracking ∧ (setPeer j p s).power = s.power ∧
    (setPeer j p s).edge = s.edge ∧ (setPeer j p s).bus = s.bus ∧ (setPeer j p s).align = s.align ∧
    (setPeer j p s).config = s.config ∧ (setPeer j p s).link = s.link ∧ (setPeer j p s).events = s.events ∧
    (setPeer j p s).pulse = s.pulse ∧ (setPeer j p s).freeValues = s.freeValues :=
  ⟨rfl, rfl, rfl, rfl, rfl, rfl, rfl, rfl, rfl, rfl, rfl, rfl, rfl⟩

@[simp] theorem agePeers_keeps (s : State) :
    (agePeers s).pending = s.pending ∧ (agePeers s).contexts = s.contexts ∧ (agePeers s).engine = s.engine ∧
    (agePeers s).tracking = s.tracking ∧ (agePeers s).power = s.power ∧ (agePeers s).edge = s.edge ∧
    (agePeers s).bus = s.bus ∧ (agePeers s).align = s.align ∧ (agePeers s).config = s.config ∧
    (agePeers s).link = s.link ∧ (agePeers s).events = s.events ∧ (agePeers s).pulse = s.pulse ∧
    (agePeers s).freeValues = s.freeValues :=
  ⟨rfl, rfl, rfl, rfl, rfl, rfl, rfl, rfl, rfl, rfl, rfl, rfl, rfl⟩

@[simp] theorem countContexts_keeps (s : State) :
    (countContexts s).pending = s.pending ∧ (countContexts s).engine = s.engine ∧
    (countContexts s).tracking = s.tracking ∧ (countContexts s).power = s.power ∧ (countContexts s).edge = s.edge ∧
    (countContexts s).bus = s.bus ∧ (countContexts s).peers = s.peers ∧ (countContexts s).align = s.align ∧
    (countContexts s).config = s.config ∧ (countContexts s).link = s.link ∧ (countContexts s).events = s.events ∧
    (countContexts s).pulse = s.pulse ∧ (countContexts s).freeValues = s.freeValues :=
  ⟨rfl, rfl, rfl, rfl, rfl, rfl, rfl, rfl, rfl, rfl, rfl, rfl, rfl⟩

@[simp] theorem setEpoch_keeps (e : Option Epoch) (s : State) :
    (setEpoch e s).pending = s.pending ∧ (setEpoch e s).contexts = s.contexts ∧ (setEpoch e s).engine = s.engine ∧
    (setEpoch e s).power = s.power ∧ (setEpoch e s).edge = s.edge ∧ (setEpoch e s).bus = s.bus ∧
    (setEpoch e s).peers = s.peers ∧ (setEpoch e s).config = s.config ∧ (setEpoch e s).link = s.link ∧
    (setEpoch e s).events = s.events ∧ (setEpoch e s).pulse = s.pulse ∧ (setEpoch e s).freeValues = s.freeValues :=
  ⟨rfl, rfl, rfl, rfl, rfl, rfl, rfl, rfl, rfl, rfl, rfl, rfl⟩

@[simp] theorem openPulse_keeps (w : PulseWork) (s : State) :
    (openPulse w s).pending = s.pending ∧ (openPulse w s).contexts = s.contexts ∧
    (openPulse w s).engine = s.engine ∧ (openPulse w s).tracking = s.tracking ∧ (openPulse w s).power = s.power ∧
    (openPulse w s).edge = s.edge ∧ (openPulse w s).bus = s.bus ∧ (openPulse w s).peers = s.peers ∧
    (openPulse w s).align = s.align ∧ (openPulse w s).config = s.config ∧ (openPulse w s).link = s.link ∧
    (openPulse w s).events = s.events ∧ (openPulse w s).freeValues = s.freeValues :=
  ⟨rfl, rfl, rfl, rfl, rfl, rfl, rfl, rfl, rfl, rfl, rfl, rfl, rfl⟩

@[simp] theorem setFifo_keeps (l : List Record) (s : State) :
    (setFifo l s).pending = s.pending ∧ (setFifo l s).contexts = s.contexts ∧ (setFifo l s).engine = s.engine ∧
    (setFifo l s).tracking = s.tracking ∧ (setFifo l s).power = s.power ∧ (setFifo l s).edge = s.edge ∧
    (setFifo l s).bus = s.bus ∧ (setFifo l s).peers = s.peers ∧ (setFifo l s).align = s.align ∧
    (setFifo l s).config = s.config ∧ (setFifo l s).events = s.events ∧ (setFifo l s).pulse = s.pulse ∧
    (setFifo l s).freeValues = s.freeValues :=
  ⟨rfl, rfl, rfl, rfl, rfl, rfl, rfl, rfl, rfl, rfl, rfl, rfl, rfl⟩

@[simp] theorem restartLink_keeps (s : State) :
    (restartLink s).pending = s.pending ∧ (restartLink s).contexts = s.contexts ∧
    (restartLink s).engine = s.engine ∧ (restartLink s).tracking = s.tracking ∧ (restartLink s).power = s.power ∧
    (restartLink s).edge = s.edge ∧ (restartLink s).bus = s.bus ∧ (restartLink s).peers = s.peers ∧
    (restartLink s).align = s.align ∧ (restartLink s).config = s.config ∧ (restartLink s).events = s.events ∧
    (restartLink s).pulse = s.pulse ∧ (restartLink s).freeValues = s.freeValues :=
  ⟨rfl, rfl, rfl, rfl, rfl, rfl, rfl, rfl, rfl, rfl, rfl, rfl, rfl⟩

@[simp] theorem reply_keeps (r : OutRecord) (s : State) :
    (reply r s).pending = s.pending ∧ (reply r s).contexts = s.contexts ∧ (reply r s).engine = s.engine ∧
    (reply r s).tracking = s.tracking ∧ (reply r s).power = s.power ∧ (reply r s).edge = s.edge ∧
    (reply r s).bus = s.bus ∧ (reply r s).peers = s.peers ∧ (reply r s).align = s.align ∧
    (reply r s).config = s.config ∧ (reply r s).events = s.events ∧ (reply r s).pulse = s.pulse ∧
    (reply r s).freeValues = s.freeValues :=
  ⟨rfl, rfl, rfl, rfl, rfl, rfl, rfl, rfl, rfl, rfl, rfl, rfl, rfl⟩

@[simp] theorem cutPlans_keeps (s : State) :
    (cutPlans s).pending = s.pending ∧ (cutPlans s).contexts = s.contexts ∧ (cutPlans s).engine = s.engine ∧
    (cutPlans s).tracking = s.tracking ∧ (cutPlans s).power = s.power ∧ (cutPlans s).edge = s.edge ∧
    (cutPlans s).bus = s.bus ∧ (cutPlans s).peers = s.peers ∧ (cutPlans s).align = s.align ∧
    (cutPlans s).config = s.config ∧ (cutPlans s).events = s.events ∧ (cutPlans s).pulse = s.pulse ∧
    (cutPlans s).freeValues = s.freeValues :=
  ⟨rfl, rfl, rfl, rfl, rfl, rfl, rfl, rfl, rfl, rfl, rfl, rfl, rfl⟩

@[simp] theorem lineSeenIdle_keeps (s : State) :
    (lineSeenIdle s).pending = s.pending ∧ (lineSeenIdle s).contexts = s.contexts ∧
    (lineSeenIdle s).engine = s.engine ∧ (lineSeenIdle s).tracking = s.tracking ∧
    (lineSeenIdle s).power = s.power ∧ (lineSeenIdle s).edge = s.edge ∧ (lineSeenIdle s).peers = s.peers ∧
    (lineSeenIdle s).align = s.align ∧ (lineSeenIdle s).config = s.config ∧ (lineSeenIdle s).link = s.link ∧
    (lineSeenIdle s).events = s.events ∧ (lineSeenIdle s).pulse = s.pulse ∧
    (lineSeenIdle s).freeValues = s.freeValues :=
  ⟨rfl, rfl, rfl, rfl, rfl, rfl, rfl, rfl, rfl, rfl, rfl, rfl, rfl⟩

@[simp] theorem transmitterStops_keeps (s : State) :
    (transmitterStops s).pending = s.pending ∧ (transmitterStops s).contexts = s.contexts ∧
    (transmitterStops s).engine = s.engine ∧ (transmitterStops s).tracking = s.tracking ∧
    (transmitterStops s).power = s.power ∧ (transmitterStops s).edge = s.edge ∧
    (transmitterStops s).peers = s.peers ∧ (transmitterStops s).align = s.align ∧
    (transmitterStops s).config = s.config ∧ (transmitterStops s).link = s.link ∧
    (transmitterStops s).events = s.events ∧ (transmitterStops s).pulse = s.pulse ∧
    (transmitterStops s).freeValues = s.freeValues :=
  ⟨rfl, rfl, rfl, rfl, rfl, rfl, rfl, rfl, rfl, rfl, rfl, rfl, rfl⟩

@[simp] theorem lineStands_keeps (b : Bool) (s : State) :
    (lineStands b s).pending = s.pending ∧ (lineStands b s).contexts = s.contexts ∧
    (lineStands b s).engine = s.engine ∧ (lineStands b s).tracking = s.tracking ∧
    (lineStands b s).power = s.power ∧ (lineStands b s).edge = s.edge ∧ (lineStands b s).bus = s.bus ∧
    (lineStands b s).peers = s.peers ∧ (lineStands b s).align = s.align ∧ (lineStands b s).config = s.config ∧
    (lineStands b s).events = s.events ∧ (lineStands b s).pulse = s.pulse ∧
    (lineStands b s).freeValues = s.freeValues :=
  ⟨rfl, rfl, rfl, rfl, rfl, rfl, rfl, rfl, rfl, rfl, rfl, rfl, rfl⟩

@[simp] theorem recordArrived_keeps (s : State) :
    (recordArrived s).pending = s.pending ∧ (recordArrived s).contexts = s.contexts ∧
    (recordArrived s).engine = s.engine ∧ (recordArrived s).tracking = s.tracking ∧
    (recordArrived s).power = s.power ∧ (recordArrived s).edge = s.edge ∧ (recordArrived s).bus = s.bus ∧
    (recordArrived s).peers = s.peers ∧ (recordArrived s).align = s.align ∧ (recordArrived s).config = s.config ∧
    (recordArrived s).events = s.events ∧ (recordArrived s).pulse = s.pulse ∧
    (recordArrived s).freeValues = s.freeValues :=
  ⟨rfl, rfl, rfl, rfl, rfl, rfl, rfl, rfl, rfl, rfl, rfl, rfl, rfl⟩

@[simp] theorem setEvent_keeps (k : EventKind) (n : Nat) (c : Code) (s : State) :
    (setEvent k n c s).pending = s.pending ∧ (setEvent k n c s).contexts = s.contexts ∧
    (setEvent k n c s).engine = s.engine ∧ (setEvent k n c s).tracking = s.tracking ∧
    (setEvent k n c s).power = s.power ∧ (setEvent k n c s).edge = s.edge ∧ (setEvent k n c s).bus = s.bus ∧
    (setEvent k n c s).peers = s.peers ∧ (setEvent k n c s).align = s.align ∧
    (setEvent k n c s).config = s.config ∧ (setEvent k n c s).pulse = s.pulse ∧
    (setEvent k n c s).freeValues = s.freeValues :=
  ⟨rfl, rfl, rfl, rfl, rfl, rfl, rfl, rfl, rfl, rfl, rfl, rfl⟩

@[simp] theorem clearFlags_keeps (m : BitVec 32) (s : State) :
    (clearFlags m s).pending = s.pending ∧ (clearFlags m s).contexts = s.contexts ∧
    (clearFlags m s).engine = s.engine ∧ (clearFlags m s).tracking = s.tracking ∧
    (clearFlags m s).power = s.power ∧ (clearFlags m s).edge = s.edge ∧ (clearFlags m s).bus = s.bus ∧
    (clearFlags m s).peers = s.peers ∧ (clearFlags m s).align = s.align ∧ (clearFlags m s).config = s.config ∧
    (clearFlags m s).link = s.link ∧ (clearFlags m s).pulse = s.pulse ∧
    (clearFlags m s).freeValues = s.freeValues :=
  ⟨rfl, rfl, rfl, rfl, rfl, rfl, rfl, rfl, rfl, rfl, rfl, rfl, rfl⟩

@[simp] theorem addOutstanding_keeps (i : Index) (s : State) :
    (addOutstanding i s).pending = s.pending ∧ (addOutstanding i s).engine = s.engine ∧
    (addOutstanding i s).tracking = s.tracking ∧ (addOutstanding i s).power = s.power ∧
    (addOutstanding i s).edge = s.edge ∧ (addOutstanding i s).bus = s.bus ∧ (addOutstanding i s).peers = s.peers ∧
    (addOutstanding i s).align = s.align ∧ (addOutstanding i s).config = s.config ∧
    (addOutstanding i s).link = s.link ∧ (addOutstanding i s).events = s.events ∧
    (addOutstanding i s).pulse = s.pulse ∧ (addOutstanding i s).freeValues = s.freeValues :=
  ⟨rfl, rfl, rfl, rfl, rfl, rfl, rfl, rfl, rfl, rfl, rfl, rfl, rfl⟩

@[simp] theorem enterFree_keeps (i : Index) (s : State) :
    (enterFree i s).pending = s.pending ∧ (enterFree i s).engine = s.engine ∧
    (enterFree i s).tracking = s.tracking ∧ (enterFree i s).power = s.power ∧ (enterFree i s).edge = s.edge ∧
    (enterFree i s).bus = s.bus ∧ (enterFree i s).peers = s.peers ∧ (enterFree i s).align = s.align ∧
    (enterFree i s).config = s.config ∧ (enterFree i s).link = s.link ∧ (enterFree i s).events = s.events ∧
    (enterFree i s).pulse = s.pulse ∧ (enterFree i s).freeValues = s.freeValues :=
  ⟨rfl, rfl, rfl, rfl, rfl, rfl, rfl, rfl, rfl, rfl, rfl, rfl, rfl⟩

@[simp] theorem releaseDone_keeps (i : Index) (s : State) :
    (releaseDone i s).pending = s.pending ∧ (releaseDone i s).engine = s.engine ∧
    (releaseDone i s).tracking = s.tracking ∧ (releaseDone i s).power = s.power ∧ (releaseDone i s).edge = s.edge ∧
    (releaseDone i s).bus = s.bus ∧ (releaseDone i s).peers = s.peers ∧ (releaseDone i s).align = s.align ∧
    (releaseDone i s).config = s.config ∧ (releaseDone i s).pulse = s.pulse ∧
    (releaseDone i s).freeValues = s.freeValues :=
  ⟨rfl, rfl, rfl, rfl, rfl, rfl, rfl, rfl, rfl, rfl, rfl⟩

@[simp] theorem handFigures_keeps (e : Epoch) (l : List Placed) (s : State) :
    (handFigures e l s).pending = s.pending ∧ (handFigures e l s).contexts = s.contexts ∧
    (handFigures e l s).tracking = s.tracking ∧ (handFigures e l s).bus = s.bus ∧
    (handFigures e l s).peers = s.peers ∧ (handFigures e l s).align = s.align ∧
    (handFigures e l s).config = s.config ∧ (handFigures e l s).link = s.link ∧
    (handFigures e l s).events = s.events ∧ (handFigures e l s).pulse = s.pulse ∧
    (handFigures e l s).freeValues = s.freeValues :=
  ⟨rfl, rfl, rfl, rfl, rfl, rfl, rfl, rfl, rfl, rfl, rfl⟩

@[simp] theorem consumeRedo_keeps (l : List Placed) (s : State) :
    (consumeRedo l s).pending = s.pending ∧ (consumeRedo l s).contexts = s.contexts ∧
    (consumeRedo l s).engine = s.engine ∧ (consumeRedo l s).power = s.power ∧ (consumeRedo l s).edge = s.edge ∧
    (consumeRedo l s).bus = s.bus ∧ (consumeRedo l s).peers = s.peers ∧ (consumeRedo l s).align = s.align ∧
    (consumeRedo l s).config = s.config ∧ (consumeRedo l s).link = s.link ∧ (consumeRedo l s).events = s.events ∧
    (consumeRedo l s).pulse = s.pulse ∧ (consumeRedo l s).freeValues = s.freeValues :=
  ⟨rfl, rfl, rfl, rfl, rfl, rfl, rfl, rfl, rfl, rfl, rfl, rfl, rfl⟩

@[simp] theorem enterBatch_keeps (e : Epoch) (l : List Placed) (s : State) :
    (enterBatch e l s).pending = s.pending ∧ (enterBatch e l s).contexts = s.contexts ∧
    (enterBatch e l s).engine = s.engine ∧ (enterBatch e l s).power = s.power ∧ (enterBatch e l s).edge = s.edge ∧
    (enterBatch e l s).bus = s.bus ∧ (enterBatch e l s).peers = s.peers ∧ (enterBatch e l s).align = s.align ∧
    (enterBatch e l s).config = s.config ∧ (enterBatch e l s).link = s.link ∧
    (enterBatch e l s).events = s.events ∧ (enterBatch e l s).pulse = s.pulse ∧
    (enterBatch e l s).freeValues = s.freeValues :=
  ⟨rfl, rfl, rfl, rfl, rfl, rfl, rfl, rfl, rfl, rfl, rfl, rfl, rfl⟩

@[simp] theorem commitBatch_keeps (e : Epoch) (s : State) :
    (commitBatch e s).pending = s.pending ∧ (commitBatch e s).contexts = s.contexts ∧
    (commitBatch e s).engine = s.engine ∧ (commitBatch e s).power = s.power ∧ (commitBatch e s).edge = s.edge ∧
    (commitBatch e s).bus = s.bus ∧ (commitBatch e s).peers = s.peers ∧ (commitBatch e s).align = s.align ∧
    (commitBatch e s).config = s.config ∧ (commitBatch e s).link = s.link ∧ (commitBatch e s).events = s.events ∧
    (commitBatch e s).pulse = s.pulse ∧ (commitBatch e s).freeValues = s.freeValues :=
  ⟨rfl, rfl, rfl, rfl, rfl, rfl, rfl, rfl, rfl, rfl, rfl, rfl, rfl⟩

@[simp] theorem duplicateStation_keeps (s : State) :
    (duplicateStation s).pending = s.pending ∧ (duplicateStation s).contexts = s.contexts ∧
    (duplicateStation s).engine = s.engine ∧ (duplicateStation s).tracking = s.tracking ∧
    (duplicateStation s).power = s.power ∧ (duplicateStation s).edge = s.edge ∧ (duplicateStation s).bus = s.bus ∧
    (duplicateStation s).peers = s.peers ∧ (duplicateStation s).align = s.align ∧
    (duplicateStation s).config = s.config ∧ (duplicateStation s).pulse = s.pulse ∧
    (duplicateStation s).freeValues = s.freeValues :=
  ⟨rfl, rfl, rfl, rfl, rfl, rfl, rfl, rfl, rfl, rfl, rfl, rfl⟩

@[simp] theorem epochFault_keeps (s : State) :
    (epochFault s).pending = s.pending ∧ (epochFault s).contexts = s.contexts ∧ (epochFault s).engine = s.engine ∧
    (epochFault s).tracking = s.tracking ∧ (epochFault s).power = s.power ∧ (epochFault s).edge = s.edge ∧
    (epochFault s).bus = s.bus ∧ (epochFault s).peers = s.peers ∧ (epochFault s).align = s.align ∧
    (epochFault s).config = s.config ∧ (epochFault s).pulse = s.pulse ∧ (epochFault s).freeValues = s.freeValues :=
  ⟨rfl, rfl, rfl, rfl, rfl, rfl, rfl, rfl, rfl, rfl, rfl, rfl⟩

/-! ## What each update writes -/

@[simp] theorem setCtx_contexts (i : Index) (c : Context) (s : State) :
    (setCtx i c s).contexts = s.contexts.set i c := rfl

@[simp] theorem ctx_setCtx_self (i : Index) (c : Context) (s : State) : ctx (setCtx i c s) i = c := by
  simp [ctx]

theorem ctx_setCtx_ne {i j : Index} (c : Context) (s : State) (h : j ≠ i) : ctx (setCtx i c s) j = ctx s j := by
  simp [ctx, Table.get_set_ne _ _ h]

theorem ctx_setCtx (i j : Index) (c : Context) (s : State) :
    ctx (setCtx i c s) j = if j = i then c else ctx s j := by
  simp [ctx, Table.get_set]

@[simp] theorem setRedo_tracking (l : List RedoEntry) (s : State) :
    (setRedo l s).tracking = { s.tracking with redo := l } := rfl

@[simp] theorem setOgt_tracking (l : List OgtEntry) (s : State) :
    (setOgt l s).tracking = { s.tracking with ogt := l } := rfl

@[simp] theorem setPrev_power (n : Nat) (s : State) : (setPrev n s).power = { s.power with pPrev := n } := rfl

@[simp] theorem discardRun_engine (s : State) : (discardRun s).engine = { s.engine with run := none } := rfl

@[simp] theorem emptyCarry_engine (s : State) :
    (emptyCarry s).engine = { s.engine with carrySource := none, carryTiles := [] } := rfl

@[simp] theorem setRequestedFloor_engine (n : Nat) (s : State) :
    (setRequestedFloor n s).engine = { s.engine with requestedFloor := n } := rfl

@[simp] theorem setWatch_align (w : WatchState) (s : State) :
    (setWatch w s).align = { s.align with watch := w } := rfl

@[simp] theorem setEpoch_align (e : Option Epoch) (s : State) :
    (setEpoch e s).align = { s.align with epoch := e, lastEpoch := s.align.epoch } := rfl

@[simp] theorem setEpoch_tracking (e : Option Epoch) (s : State) :
    (setEpoch e s).tracking = { s.tracking with serial := 0 } := rfl

@[simp] theorem setPeer_peers (j : Station) (p : Peer) (s : State) :
    (setPeer j p s).peers = { s.peers with records := s.peers.records.set j p } := rfl

@[simp] theorem openPulse_pulse (w : PulseWork) (s : State) : (openPulse w s).pulse = w := rfl

@[simp] theorem setFifo_link (l : List Record) (s : State) :
    (setFifo l s).link = { s.link with fifo := l, ready := readyLevel l } := rfl

@[simp] theorem restartLink_link (s : State) :
    (restartLink s).link = { s.link with lost := false, timer := 0 } := rfl

@[simp] theorem lineStands_link (b : Bool) (s : State) :
    (lineStands b s).link = { s.link with afterIdle := b, idleRun := 0 } := rfl

@[simp] theorem recordArrived_link (s : State) :
    (recordArrived s).link = { s.link with lost := false, timer := 0, afterIdle := true, idleRun := 0 } := rfl

@[simp] theorem reply_link (r : OutRecord) (s : State) :
    (reply r s).link = { s.link with queue := s.link.queue ++ [r] } := rfl

@[simp] theorem lineSeenIdle_bus (s : State) :
    (lineSeenIdle s).bus = { s.bus with idleSeen := true, midFrame := false } := rfl

@[simp] theorem transmitterStops_bus (s : State) :
    (transmitterStops s).bus = { s.bus with midFrame := true } := rfl

@[simp] theorem setEvent_events (k : EventKind) (n : Nat) (c : Code) (s : State) :
    (setEvent k n c s).events = s.events.raise k := rfl

/-- Reading a context does not see the events or the link. -/
@[simp] theorem ctx_setEvent (k : EventKind) (n : Nat) (c : Code) (s : State) (i : Index) :
    ctx (setEvent k n c s) i = ctx s i := rfl

/-- Two states that differ only in the queue of commands have the same context. -/
theorem ctx_congr {s t : State} (h : t.contexts = s.contexts) (i : Index) : ctx t i = ctx s i := by
  simp [ctx, h]

end Sys2Proof.Machine
end

