-- ==== Sys2Proof/Laws/Frames.lean ====
section
/-!
SUPPORT. What each shared operation and each owner's work leaves as it was: one lemma per operation, which the proofs
cite in place of unfolding it.
-/
namespace Sys2Proof.Machine

@[simp] theorem advance_keeps (c : Counter) (n : Nat) (s : State) :
    (advance c n s).pending = s.pending ∧ (advance c n s).contexts = s.contexts ∧
    (advance c n s).engine = s.engine ∧ (advance c n s).tracking = s.tracking ∧ (advance c n s).power = s.power ∧
    (advance c n s).edge = s.edge ∧ (advance c n s).bus = s.bus ∧ (advance c n s).peers = s.peers ∧
    (advance c n s).align = s.align ∧ (advance c n s).config = s.config ∧ (advance c n s).pulse = s.pulse ∧
    (advance c n s).freeValues = s.freeValues :=
  by
  unfold advance
  try dsimp only
  (repeat' split) <;> simp

@[simp] theorem loseBytes_keeps (n : Nat) (s : State) :
    (loseBytes n s).pending = s.pending ∧ (loseBytes n s).contexts = s.contexts ∧
    (loseBytes n s).engine = s.engine ∧ (loseBytes n s).tracking = s.tracking ∧ (loseBytes n s).power = s.power ∧
    (loseBytes n s).edge = s.edge ∧ (loseBytes n s).bus = s.bus ∧ (loseBytes n s).peers = s.peers ∧
    (loseBytes n s).align = s.align ∧ (loseBytes n s).config = s.config ∧ (loseBytes n s).pulse = s.pulse ∧
    (loseBytes n s).freeValues = s.freeValues :=
  by
  simp [loseBytes]

@[simp] theorem deriveBar_keeps (i : Index) (s : State) :
    (deriveBar i s).pending = s.pending ∧ (deriveBar i s).engine = s.engine ∧
    (deriveBar i s).tracking = s.tracking ∧ (deriveBar i s).power = s.power ∧ (deriveBar i s).edge = s.edge ∧
    (deriveBar i s).bus = s.bus ∧ (deriveBar i s).peers = s.peers ∧ (deriveBar i s).align = s.align ∧
    (deriveBar i s).config = s.config ∧ (deriveBar i s).pulse = s.pulse ∧
    (deriveBar i s).freeValues = s.freeValues :=
  by
  unfold deriveBar
  try dsimp only
  (repeat' split) <;> simp

@[simp] theorem deriveAllBars_keeps (s : State) :
    (deriveAllBars s).pending = s.pending ∧ (deriveAllBars s).engine = s.engine ∧
    (deriveAllBars s).tracking = s.tracking ∧ (deriveAllBars s).power = s.power ∧ (deriveAllBars s).edge = s.edge ∧
    (deriveAllBars s).bus = s.bus ∧ (deriveAllBars s).peers = s.peers ∧ (deriveAllBars s).align = s.align ∧
    (deriveAllBars s).config = s.config ∧ (deriveAllBars s).pulse = s.pulse ∧
    (deriveAllBars s).freeValues = s.freeValues :=
  by
  unfold deriveAllBars
  exact ⟨(foldl_keep State.pending _ (by intros; simp) _ _).trans (by simp),
    (foldl_keep State.engine _ (by intros; simp) _ _).trans (by simp),
    (foldl_keep State.tracking _ (by intros; simp) _ _).trans (by simp),
    (foldl_keep State.power _ (by intros; simp) _ _).trans (by simp),
    (foldl_keep State.edge _ (by intros; simp) _ _).trans (by simp),
    (foldl_keep State.bus _ (by intros; simp) _ _).trans (by simp),
    (foldl_keep State.peers _ (by intros; simp) _ _).trans (by simp),
    (foldl_keep State.align _ (by intros; simp) _ _).trans (by simp),
    (foldl_keep State.config _ (by intros; simp) _ _).trans (by simp),
    (foldl_keep State.pulse _ (by intros; simp) _ _).trans (by simp),
    (foldl_keep State.freeValues _ (by intros; simp) _ _).trans (by simp)⟩

@[simp] theorem charge_keeps (i : Index) (d : Direction) (n : Nat) (s : State) :
    (charge i d n s).pending = s.pending ∧ (charge i d n s).engine = s.engine ∧
    (charge i d n s).tracking = s.tracking ∧ (charge i d n s).power = s.power ∧ (charge i d n s).edge = s.edge ∧
    (charge i d n s).bus = s.bus ∧ (charge i d n s).peers = s.peers ∧ (charge i d n s).align = s.align ∧
    (charge i d n s).config = s.config ∧ (charge i d n s).link = s.link ∧ (charge i d n s).events = s.events ∧
    (charge i d n s).pulse = s.pulse ∧ (charge i d n s).freeValues = s.freeValues :=
  by
  unfold charge
  try dsimp only
  (repeat' split) <;> simp

@[simp] theorem refund_keeps (i : Index) (d : Direction) (n : Nat) (s : State) :
    (refund i d n s).pending = s.pending ∧ (refund i d n s).engine = s.engine ∧
    (refund i d n s).tracking = s.tracking ∧ (refund i d n s).power = s.power ∧ (refund i d n s).edge = s.edge ∧
    (refund i d n s).bus = s.bus ∧ (refund i d n s).peers = s.peers ∧ (refund i d n s).align = s.align ∧
    (refund i d n s).config = s.config ∧ (refund i d n s).pulse = s.pulse ∧
    (refund i d n s).freeValues = s.freeValues :=
  by
  unfold refund
  try dsimp only
  (repeat' split) <;> simp

@[simp] theorem dropOutstanding_keeps (i : Index) (s : State) :
    (dropOutstanding i s).pending = s.pending ∧ (dropOutstanding i s).engine = s.engine ∧
    (dropOutstanding i s).tracking = s.tracking ∧ (dropOutstanding i s).power = s.power ∧
    (dropOutstanding i s).edge = s.edge ∧ (dropOutstanding i s).bus = s.bus ∧
    (dropOutstanding i s).peers = s.peers ∧ (dropOutstanding i s).align = s.align ∧
    (dropOutstanding i s).config = s.config ∧ (dropOutstanding i s).pulse = s.pulse ∧
    (dropOutstanding i s).freeValues = s.freeValues :=
  by
  unfold dropOutstanding
  try dsimp only
  (repeat' split) <;> simp

@[simp] theorem emptyOutstanding_keeps (s : State) :
    (emptyOutstanding s).pending = s.pending ∧ (emptyOutstanding s).engine = s.engine ∧
    (emptyOutstanding s).tracking = s.tracking ∧ (emptyOutstanding s).power = s.power ∧
    (emptyOutstanding s).edge = s.edge ∧ (emptyOutstanding s).bus = s.bus ∧ (emptyOutstanding s).peers = s.peers ∧
    (emptyOutstanding s).align = s.align ∧ (emptyOutstanding s).config = s.config ∧
    (emptyOutstanding s).pulse = s.pulse ∧ (emptyOutstanding s).freeValues = s.freeValues :=
  by
  unfold emptyOutstanding
  exact ⟨(foldl_keep State.pending _ (by intros; simp) _ _).trans (by simp),
    (foldl_keep State.engine _ (by intros; simp) _ _).trans (by simp),
    (foldl_keep State.tracking _ (by intros; simp) _ _).trans (by simp),
    (foldl_keep State.power _ (by intros; simp) _ _).trans (by simp),
    (foldl_keep State.edge _ (by intros; simp) _ _).trans (by simp),
    (foldl_keep State.bus _ (by intros; simp) _ _).trans (by simp),
    (foldl_keep State.peers _ (by intros; simp) _ _).trans (by simp),
    (foldl_keep State.align _ (by intros; simp) _ _).trans (by simp),
    (foldl_keep State.config _ (by intros; simp) _ _).trans (by simp),
    (foldl_keep State.pulse _ (by intros; simp) _ _).trans (by simp),
    (foldl_keep State.freeValues _ (by intros; simp) _ _).trans (by simp)⟩

@[simp] theorem frameDue_keeps (f : BusFrame) (s : State) :
    (frameDue f s).pending = s.pending ∧ (frameDue f s).contexts = s.contexts ∧ (frameDue f s).engine = s.engine ∧
    (frameDue f s).tracking = s.tracking ∧ (frameDue f s).power = s.power ∧ (frameDue f s).edge = s.edge ∧
    (frameDue f s).peers = s.peers ∧ (frameDue f s).align = s.align ∧ (frameDue f s).config = s.config ∧
    (frameDue f s).pulse = s.pulse ∧ (frameDue f s).freeValues = s.freeValues :=
  by
  unfold frameDue
  try dsimp only
  (repeat' split) <;> simp

@[simp] theorem addRedo_keeps (e : RedoEntry) (s : State) :
    (addRedo e s).pending = s.pending ∧ (addRedo e s).contexts = s.contexts ∧ (addRedo e s).engine = s.engine ∧
    (addRedo e s).power = s.power ∧ (addRedo e s).edge = s.edge ∧ (addRedo e s).bus = s.bus ∧
    (addRedo e s).peers = s.peers ∧ (addRedo e s).align = s.align ∧ (addRedo e s).config = s.config ∧
    (addRedo e s).pulse = s.pulse ∧ (addRedo e s).freeValues = s.freeValues :=
  by
  unfold addRedo
  try dsimp only
  (repeat' split) <;> simp

@[simp] theorem dropGrant_keeps (k : EventKind) (c : Code) (i : Index) (n : Nat) (s : State) :
    (dropGrant k c i n s).pending = s.pending ∧ (dropGrant k c i n s).contexts = s.contexts ∧
    (dropGrant k c i n s).engine = s.engine ∧ (dropGrant k c i n s).tracking = s.tracking ∧
    (dropGrant k c i n s).power = s.power ∧ (dropGrant k c i n s).edge = s.edge ∧
    (dropGrant k c i n s).bus = s.bus ∧ (dropGrant k c i n s).peers = s.peers ∧
    (dropGrant k c i n s).align = s.align ∧ (dropGrant k c i n s).config = s.config ∧
    (dropGrant k c i n s).pulse = s.pulse ∧ (dropGrant k c i n s).freeValues = s.freeValues :=
  by
  simp [dropGrant]

@[simp] theorem failGrant_keeps (g : OgtEntry) (s : State) :
    (failGrant g s).pending = s.pending ∧ (failGrant g s).contexts = s.contexts ∧
    (failGrant g s).engine = s.engine ∧ (failGrant g s).power = s.power ∧ (failGrant g s).edge = s.edge ∧
    (failGrant g s).bus = s.bus ∧ (failGrant g s).peers = s.peers ∧ (failGrant g s).align = s.align ∧
    (failGrant g s).config = s.config ∧ (failGrant g s).pulse = s.pulse ∧
    (failGrant g s).freeValues = s.freeValues :=
  by
  unfold failGrant
  try dsimp only
  (repeat' split) <;> simp

@[simp] theorem returnGrant_keeps (n : Epoch) (g : OgtEntry) (o : RedoOrigin) (s : State) :
    (returnGrant n g o s).pending = s.pending ∧ (returnGrant n g o s).contexts = s.contexts ∧
    (returnGrant n g o s).engine = s.engine ∧ (returnGrant n g o s).power = s.power ∧
    (returnGrant n g o s).edge = s.edge ∧ (returnGrant n g o s).bus = s.bus ∧
    (returnGrant n g o s).peers = s.peers ∧ (returnGrant n g o s).align = s.align ∧
    (returnGrant n g o s).config = s.config ∧ (returnGrant n g o s).pulse = s.pulse ∧
    (returnGrant n g o s).freeValues = s.freeValues :=
  by
  unfold returnGrant
  try dsimp only
  (repeat' split) <;> simp

@[simp] theorem dropExpired_keeps (e : RedoEntry) (s : State) :
    (dropExpired s e).pending = s.pending ∧ (dropExpired s e).contexts = s.contexts ∧
    (dropExpired s e).engine = s.engine ∧ (dropExpired s e).tracking = s.tracking ∧
    (dropExpired s e).power = s.power ∧ (dropExpired s e).edge = s.edge ∧ (dropExpired s e).bus = s.bus ∧
    (dropExpired s e).peers = s.peers ∧ (dropExpired s e).align = s.align ∧ (dropExpired s e).config = s.config ∧
    (dropExpired s e).pulse = s.pulse ∧ (dropExpired s e).freeValues = s.freeValues :=
  by
  simp [dropExpired]

@[simp] theorem dropDeadlines_keeps (n : Epoch) (s : State) :
    (dropDeadlines n s).pending = s.pending ∧ (dropDeadlines n s).contexts = s.contexts ∧
    (dropDeadlines n s).engine = s.engine ∧ (dropDeadlines n s).power = s.power ∧
    (dropDeadlines n s).edge = s.edge ∧ (dropDeadlines n s).bus = s.bus ∧ (dropDeadlines n s).peers = s.peers ∧
    (dropDeadlines n s).align = s.align ∧ (dropDeadlines n s).config = s.config ∧
    (dropDeadlines n s).pulse = s.pulse ∧ (dropDeadlines n s).freeValues = s.freeValues :=
  by
  unfold dropDeadlines
  exact ⟨(foldl_keep State.pending _ (by intros; simp) _ _).trans (by simp),
    (foldl_keep State.contexts _ (by intros; simp) _ _).trans (by simp),
    (foldl_keep State.engine _ (by intros; simp) _ _).trans (by simp),
    (foldl_keep State.power _ (by intros; simp) _ _).trans (by simp),
    (foldl_keep State.edge _ (by intros; simp) _ _).trans (by simp),
    (foldl_keep State.bus _ (by intros; simp) _ _).trans (by simp),
    (foldl_keep State.peers _ (by intros; simp) _ _).trans (by simp),
    (foldl_keep State.align _ (by intros; simp) _ _).trans (by simp),
    (foldl_keep State.config _ (by intros; simp) _ _).trans (by simp),
    (foldl_keep State.pulse _ (by intros; simp) _ _).trans (by simp),
    (foldl_keep State.freeValues _ (by intros; simp) _ _).trans (by simp)⟩

@[simp] theorem releaseRedo_keeps (i : Index) (s : State) :
    (releaseRedo i s).pending = s.pending ∧ (releaseRedo i s).contexts = s.contexts ∧
    (releaseRedo i s).engine = s.engine ∧ (releaseRedo i s).power = s.power ∧ (releaseRedo i s).edge = s.edge ∧
    (releaseRedo i s).bus = s.bus ∧ (releaseRedo i s).peers = s.peers ∧ (releaseRedo i s).align = s.align ∧
    (releaseRedo i s).config = s.config ∧ (releaseRedo i s).pulse = s.pulse ∧
    (releaseRedo i s).freeValues = s.freeValues :=
  by
  simp [releaseRedo]

@[simp] theorem failEntry_keeps (g : OgtEntry) (s : State) :
    (failEntry s g).pending = s.pending ∧ (failEntry s g).engine = s.engine ∧ (failEntry s g).power = s.power ∧
    (failEntry s g).edge = s.edge ∧ (failEntry s g).bus = s.bus ∧ (failEntry s g).peers = s.peers ∧
    (failEntry s g).align = s.align ∧ (failEntry s g).config = s.config ∧ (failEntry s g).pulse = s.pulse ∧
    (failEntry s g).freeValues = s.freeValues :=
  by
  simp [failEntry]

@[simp] theorem expireGrants_keeps (n : Epoch) (s : State) :
    (expireGrants n s).pending = s.pending ∧ (expireGrants n s).engine = s.engine ∧
    (expireGrants n s).power = s.power ∧ (expireGrants n s).edge = s.edge ∧ (expireGrants n s).bus = s.bus ∧
    (expireGrants n s).peers = s.peers ∧ (expireGrants n s).align = s.align ∧
    (expireGrants n s).config = s.config ∧ (expireGrants n s).pulse = s.pulse ∧
    (expireGrants n s).freeValues = s.freeValues :=
  by
  unfold expireGrants
  exact ⟨(foldl_keep State.pending _ (by intros; simp) _ _).trans (by simp),
    (foldl_keep State.engine _ (by intros; simp) _ _).trans (by simp),
    (foldl_keep State.power _ (by intros; simp) _ _).trans (by simp),
    (foldl_keep State.edge _ (by intros; simp) _ _).trans (by simp),
    (foldl_keep State.bus _ (by intros; simp) _ _).trans (by simp),
    (foldl_keep State.peers _ (by intros; simp) _ _).trans (by simp),
    (foldl_keep State.align _ (by intros; simp) _ _).trans (by simp),
    (foldl_keep State.config _ (by intros; simp) _ _).trans (by simp),
    (foldl_keep State.pulse _ (by intros; simp) _ _).trans (by simp),
    (foldl_keep State.freeValues _ (by intros; simp) _ _).trans (by simp)⟩

@[simp] theorem voidEntry_keeps (n : Epoch) (g : OgtEntry) (s : State) :
    (voidEntry n s g).pending = s.pending ∧ (voidEntry n s g).engine = s.engine ∧
    (voidEntry n s g).power = s.power ∧ (voidEntry n s g).edge = s.edge ∧ (voidEntry n s g).bus = s.bus ∧
    (voidEntry n s g).peers = s.peers ∧ (voidEntry n s g).align = s.align ∧ (voidEntry n s g).config = s.config ∧
    (voidEntry n s g).pulse = s.pulse ∧ (voidEntry n s g).freeValues = s.freeValues :=
  by
  unfold voidEntry
  try dsimp only
  (repeat' split) <;> simp

@[simp] theorem voidBatch_keeps (n e : Epoch) (s : State) :
    (voidBatch n e s).pending = s.pending ∧ (voidBatch n e s).engine = s.engine ∧
    (voidBatch n e s).power = s.power ∧ (voidBatch n e s).edge = s.edge ∧ (voidBatch n e s).bus = s.bus ∧
    (voidBatch n e s).peers = s.peers ∧ (voidBatch n e s).align = s.align ∧ (voidBatch n e s).config = s.config ∧
    (voidBatch n e s).pulse = s.pulse ∧ (voidBatch n e s).freeValues = s.freeValues :=
  by
  unfold voidBatch
  refine ⟨?_, ?_, ?_, ?_, ?_, ?_, ?_, ?_, ?_, ?_⟩ <;> simp
  · exact (foldl_keep State.pending _ (by intros; simp) _ _)
  · exact (foldl_keep State.engine _ (by intros; simp) _ _)
  · exact (foldl_keep State.power _ (by intros; simp) _ _)
  · exact (foldl_keep State.edge _ (by intros; simp) _ _)
  · exact (foldl_keep State.bus _ (by intros; simp) _ _)
  · exact (foldl_keep State.peers _ (by intros; simp) _ _)
  · exact (foldl_keep State.align _ (by intros; simp) _ _)
  · exact (foldl_keep State.config _ (by intros; simp) _ _)
  · exact (foldl_keep State.pulse _ (by intros; simp) _ _)
  · exact (foldl_keep State.freeValues _ (by intros; simp) _ _)

@[simp] theorem voidAtTarget_keeps (n : Epoch) (s : State) :
    (voidAtTarget n s).pending = s.pending ∧ (voidAtTarget n s).engine = s.engine ∧
    (voidAtTarget n s).power = s.power ∧ (voidAtTarget n s).edge = s.edge ∧ (voidAtTarget n s).bus = s.bus ∧
    (voidAtTarget n s).peers = s.peers ∧ (voidAtTarget n s).align = s.align ∧
    (voidAtTarget n s).config = s.config ∧ (voidAtTarget n s).pulse = s.pulse ∧
    (voidAtTarget n s).freeValues = s.freeValues :=
  by
  unfold voidAtTarget
  try dsimp only
  (repeat' split) <;> simp

@[simp] theorem voidAllSent_keeps (s : State) :
    (voidAllSent s).pending = s.pending ∧ (voidAllSent s).engine = s.engine ∧ (voidAllSent s).power = s.power ∧
    (voidAllSent s).edge = s.edge ∧ (voidAllSent s).bus = s.bus ∧ (voidAllSent s).peers = s.peers ∧
    (voidAllSent s).align = s.align ∧ (voidAllSent s).config = s.config ∧ (voidAllSent s).pulse = s.pulse ∧
    (voidAllSent s).freeValues = s.freeValues :=
  by
  unfold voidAllSent
  exact ⟨(foldl_keep State.pending _ (by intros; simp) _ _).trans (by simp),
    (foldl_keep State.engine _ (by intros; simp) _ _).trans (by simp),
    (foldl_keep State.power _ (by intros; simp) _ _).trans (by simp),
    (foldl_keep State.edge _ (by intros; simp) _ _).trans (by simp),
    (foldl_keep State.bus _ (by intros; simp) _ _).trans (by simp),
    (foldl_keep State.peers _ (by intros; simp) _ _).trans (by simp),
    (foldl_keep State.align _ (by intros; simp) _ _).trans (by simp),
    (foldl_keep State.config _ (by intros; simp) _ _).trans (by simp),
    (foldl_keep State.pulse _ (by intros; simp) _ _).trans (by simp),
    (foldl_keep State.freeValues _ (by intros; simp) _ _).trans (by simp)⟩

@[simp] theorem emptyTracking_keeps (s : State) :
    (emptyTracking s).pending = s.pending ∧ (emptyTracking s).engine = s.engine ∧
    (emptyTracking s).power = s.power ∧ (emptyTracking s).edge = s.edge ∧ (emptyTracking s).bus = s.bus ∧
    (emptyTracking s).peers = s.peers ∧ (emptyTracking s).align = s.align ∧ (emptyTracking s).config = s.config ∧
    (emptyTracking s).pulse = s.pulse ∧ (emptyTracking s).freeValues = s.freeValues :=
  by
  simp [emptyTracking]

@[simp] theorem abortTarget_keeps (b : Bool) (e : Epoch) (s : State) :
    (abortTarget b e s).pending = s.pending ∧ (abortTarget b e s).contexts = s.contexts ∧
    (abortTarget b e s).edge = s.edge ∧ (abortTarget b e s).peers = s.peers ∧ (abortTarget b e s).align = s.align ∧
    (abortTarget b e s).config = s.config ∧ (abortTarget b e s).pulse = s.pulse ∧
    (abortTarget b e s).freeValues = s.freeValues :=
  by
  unfold abortTarget
  try dsimp only
  (repeat' split) <;> simp

@[simp] theorem abortRun_keeps (b : Bool) (s : State) :
    (abortRun b s).pending = s.pending ∧ (abortRun b s).contexts = s.contexts ∧ (abortRun b s).edge = s.edge ∧
    (abortRun b s).peers = s.peers ∧ (abortRun b s).align = s.align ∧ (abortRun b s).config = s.config ∧
    (abortRun b s).pulse = s.pulse ∧ (abortRun b s).freeValues = s.freeValues :=
  by
  unfold abortRun
  try dsimp only
  (repeat' split) <;> simp

@[simp] theorem computeAllowance_keeps (e : Epoch) (s : State) :
    (computeAllowance e s).pending = s.pending ∧ (computeAllowance e s).contexts = s.contexts ∧
    (computeAllowance e s).engine = s.engine ∧ (computeAllowance e s).tracking = s.tracking ∧
    (computeAllowance e s).edge = s.edge ∧ (computeAllowance e s).bus = s.bus ∧
    (computeAllowance e s).peers = s.peers ∧ (computeAllowance e s).align = s.align ∧
    (computeAllowance e s).config = s.config ∧ (computeAllowance e s).pulse = s.pulse ∧
    (computeAllowance e s).freeValues = s.freeValues :=
  by
  unfold computeAllowance
  try dsimp only
  (repeat' split) <;> simp

@[simp] theorem chargeGrants_keeps (l : List Placed) (s : State) :
    (chargeGrants l s).pending = s.pending ∧ (chargeGrants l s).engine = s.engine ∧
    (chargeGrants l s).tracking = s.tracking ∧ (chargeGrants l s).power = s.power ∧
    (chargeGrants l s).edge = s.edge ∧ (chargeGrants l s).bus = s.bus ∧ (chargeGrants l s).peers = s.peers ∧
    (chargeGrants l s).align = s.align ∧ (chargeGrants l s).config = s.config ∧ (chargeGrants l s).link = s.link ∧
    (chargeGrants l s).events = s.events ∧ (chargeGrants l s).pulse = s.pulse ∧
    (chargeGrants l s).freeValues = s.freeValues :=
  by
  unfold chargeGrants
  exact ⟨(foldl_keep State.pending _ (by intros; simp) _ _).trans (by simp),
    (foldl_keep State.engine _ (by intros; simp) _ _).trans (by simp),
    (foldl_keep State.tracking _ (by intros; simp) _ _).trans (by simp),
    (foldl_keep State.power _ (by intros; simp) _ _).trans (by simp),
    (foldl_keep State.edge _ (by intros; simp) _ _).trans (by simp),
    (foldl_keep State.bus _ (by intros; simp) _ _).trans (by simp),
    (foldl_keep State.peers _ (by intros; simp) _ _).trans (by simp),
    (foldl_keep State.align _ (by intros; simp) _ _).trans (by simp),
    (foldl_keep State.config _ (by intros; simp) _ _).trans (by simp),
    (foldl_keep State.link _ (by intros; simp) _ _).trans (by simp),
    (foldl_keep State.events _ (by intros; simp) _ _).trans (by simp),
    (foldl_keep State.pulse _ (by intros; simp) _ _).trans (by simp),
    (foldl_keep State.freeValues _ (by intros; simp) _ _).trans (by simp)⟩

@[simp] theorem raiseOutstanding_keeps (l : List Placed) (s : State) :
    (raiseOutstanding l s).pending = s.pending ∧ (raiseOutstanding l s).engine = s.engine ∧
    (raiseOutstanding l s).tracking = s.tracking ∧ (raiseOutstanding l s).power = s.power ∧
    (raiseOutstanding l s).edge = s.edge ∧ (raiseOutstanding l s).bus = s.bus ∧
    (raiseOutstanding l s).peers = s.peers ∧ (raiseOutstanding l s).align = s.align ∧
    (raiseOutstanding l s).config = s.config ∧ (raiseOutstanding l s).link = s.link ∧
    (raiseOutstanding l s).events = s.events ∧ (raiseOutstanding l s).pulse = s.pulse ∧
    (raiseOutstanding l s).freeValues = s.freeValues :=
  by
  unfold raiseOutstanding
  exact ⟨(foldl_keep State.pending _ (by intros; simp) _ _).trans (by simp),
    (foldl_keep State.engine _ (by intros; simp) _ _).trans (by simp),
    (foldl_keep State.tracking _ (by intros; simp) _ _).trans (by simp),
    (foldl_keep State.power _ (by intros; simp) _ _).trans (by simp),
    (foldl_keep State.edge _ (by intros; simp) _ _).trans (by simp),
    (foldl_keep State.bus _ (by intros; simp) _ _).trans (by simp),
    (foldl_keep State.peers _ (by intros; simp) _ _).trans (by simp),
    (foldl_keep State.align _ (by intros; simp) _ _).trans (by simp),
    (foldl_keep State.config _ (by intros; simp) _ _).trans (by simp),
    (foldl_keep State.link _ (by intros; simp) _ _).trans (by simp),
    (foldl_keep State.events _ (by intros; simp) _ _).trans (by simp),
    (foldl_keep State.pulse _ (by intros; simp) _ _).trans (by simp),
    (foldl_keep State.freeValues _ (by intros; simp) _ _).trans (by simp)⟩

@[simp] theorem updateAverages_keeps (e : Epoch) (l : List Placed) (sn : Snapshot) (s : State) :
    (updateAverages e l sn s).pending = s.pending ∧ (updateAverages e l sn s).engine = s.engine ∧
    (updateAverages e l sn s).tracking = s.tracking ∧ (updateAverages e l sn s).power = s.power ∧
    (updateAverages e l sn s).edge = s.edge ∧ (updateAverages e l sn s).bus = s.bus ∧
    (updateAverages e l sn s).peers = s.peers ∧ (updateAverages e l sn s).align = s.align ∧
    (updateAverages e l sn s).config = s.config ∧ (updateAverages e l sn s).link = s.link ∧
    (updateAverages e l sn s).events = s.events ∧ (updateAverages e l sn s).pulse = s.pulse ∧
    (updateAverages e l sn s).freeValues = s.freeValues :=
  by
  unfold updateAverages
  exact ⟨(foldl_keep State.pending _ (by intros; simp) _ _).trans (by simp),
    (foldl_keep State.engine _ (by intros; simp) _ _).trans (by simp),
    (foldl_keep State.tracking _ (by intros; simp) _ _).trans (by simp),
    (foldl_keep State.power _ (by intros; simp) _ _).trans (by simp),
    (foldl_keep State.edge _ (by intros; simp) _ _).trans (by simp),
    (foldl_keep State.bus _ (by intros; simp) _ _).trans (by simp),
    (foldl_keep State.peers _ (by intros; simp) _ _).trans (by simp),
    (foldl_keep State.align _ (by intros; simp) _ _).trans (by simp),
    (foldl_keep State.config _ (by intros; simp) _ _).trans (by simp),
    (foldl_keep State.link _ (by intros; simp) _ _).trans (by simp),
    (foldl_keep State.events _ (by intros; simp) _ _).trans (by simp),
    (foldl_keep State.pulse _ (by intros; simp) _ _).trans (by simp),
    (foldl_keep State.freeValues _ (by intros; simp) _ _).trans (by simp)⟩

@[simp] theorem completeRun_keeps (r : Run) (s : State) :
    (completeRun r s).pending = s.pending ∧ (completeRun r s).peers = s.peers ∧ (completeRun r s).align = s.align ∧
    (completeRun r s).config = s.config ∧ (completeRun r s).pulse = s.pulse ∧
    (completeRun r s).freeValues = s.freeValues :=
  by
  simp [completeRun]

@[simp] theorem finishRun_keeps (s : State) :
    (finishRun s).pending = s.pending ∧ (finishRun s).peers = s.peers ∧ (finishRun s).align = s.align ∧
    (finishRun s).config = s.config ∧ (finishRun s).pulse = s.pulse ∧ (finishRun s).freeValues = s.freeValues :=
  by
  unfold finishRun
  try dsimp only
  (repeat' split) <;> simp

@[simp] theorem enterHolding_keeps (s : State) :
    (enterHolding s).pending = s.pending ∧ (enterHolding s).peers = s.peers ∧ (enterHolding s).config = s.config ∧
    (enterHolding s).pulse = s.pulse ∧ (enterHolding s).freeValues = s.freeValues :=
  by
  simp [enterHolding]

@[simp] theorem holdIfOperating_keeps (s : State) :
    (holdIfOperating s).pending = s.pending ∧ (holdIfOperating s).peers = s.peers ∧
    (holdIfOperating s).config = s.config ∧ (holdIfOperating s).pulse = s.pulse ∧
    (holdIfOperating s).freeValues = s.freeValues :=
  by
  unfold holdIfOperating
  try dsimp only
  (repeat' split) <;> simp

@[simp] theorem setPeriod_keeps (p : Period) (s : State) :
    (setPeriod p s).pending = s.pending ∧ (setPeriod p s).engine = s.engine ∧
    (setPeriod p s).tracking = s.tracking ∧ (setPeriod p s).power = s.power ∧ (setPeriod p s).edge = s.edge ∧
    (setPeriod p s).bus = s.bus ∧ (setPeriod p s).peers = s.peers ∧ (setPeriod p s).config = s.config ∧
    (setPeriod p s).pulse = s.pulse ∧ (setPeriod p s).freeValues = s.freeValues :=
  by
  simp [setPeriod]

@[simp] theorem judgeWatch_keeps (n : Nat) (s : State) :
    (judgeWatch n s).pending = s.pending ∧ (judgeWatch n s).engine = s.engine ∧
    (judgeWatch n s).tracking = s.tracking ∧ (judgeWatch n s).power = s.power ∧ (judgeWatch n s).edge = s.edge ∧
    (judgeWatch n s).bus = s.bus ∧ (judgeWatch n s).peers = s.peers ∧ (judgeWatch n s).config = s.config ∧
    (judgeWatch n s).pulse = s.pulse ∧ (judgeWatch n s).freeValues = s.freeValues :=
  by
  unfold judgeWatch
  try dsimp only
  (repeat' split) <;> simp

@[simp] theorem writePeer_keeps (j : Station) (p : Peer) (s : State) :
    (writePeer j p s).pending = s.pending ∧ (writePeer j p s).contexts = s.contexts ∧
    (writePeer j p s).engine = s.engine ∧ (writePeer j p s).tracking = s.tracking ∧
    (writePeer j p s).power = s.power ∧ (writePeer j p s).edge = s.edge ∧ (writePeer j p s).bus = s.bus ∧
    (writePeer j p s).align = s.align ∧ (writePeer j p s).config = s.config ∧ (writePeer j p s).pulse = s.pulse ∧
    (writePeer j p s).freeValues = s.freeValues :=
  by
  unfold writePeer
  try dsimp only
  (repeat' split) <;> simp

@[simp] theorem excludePeer_keeps (j : Station) (s : State) :
    (excludePeer s j).pending = s.pending ∧ (excludePeer s j).contexts = s.contexts ∧
    (excludePeer s j).engine = s.engine ∧ (excludePeer s j).tracking = s.tracking ∧
    (excludePeer s j).power = s.power ∧ (excludePeer s j).edge = s.edge ∧ (excludePeer s j).bus = s.bus ∧
    (excludePeer s j).align = s.align ∧ (excludePeer s j).config = s.config ∧ (excludePeer s j).pulse = s.pulse ∧
    (excludePeer s j).freeValues = s.freeValues :=
  by
  simp [excludePeer]

@[simp] theorem enterOperating_keeps (s : State) :
    (enterOperating s).pending = s.pending ∧ (enterOperating s).contexts = s.contexts ∧
    (enterOperating s).engine = s.engine ∧ (enterOperating s).tracking = s.tracking ∧
    (enterOperating s).power = s.power ∧ (enterOperating s).bus = s.bus ∧ (enterOperating s).config = s.config ∧
    (enterOperating s).pulse = s.pulse ∧ (enterOperating s).freeValues = s.freeValues :=
  by
  unfold enterOperating
  refine ⟨?_, ?_, ?_, ?_, ?_, ?_, ?_, ?_, ?_⟩ <;> simp
  · exact (foldl_keep State.pending _ (by intros; simp) _ _)
  · exact (foldl_keep State.contexts _ (by intros; simp) _ _)
  · exact (foldl_keep State.engine _ (by intros; simp) _ _)
  · exact (foldl_keep State.tracking _ (by intros; simp) _ _)
  · exact (foldl_keep State.power _ (by intros; simp) _ _)
  · exact (foldl_keep State.bus _ (by intros; simp) _ _)
  · exact (foldl_keep State.config _ (by intros; simp) _ _)
  · exact (foldl_keep State.pulse _ (by intros; simp) _ _)
  · exact (foldl_keep State.freeValues _ (by intros; simp) _ _)

@[simp] theorem testListening_keeps (s : State) :
    (testListening s).pending = s.pending ∧ (testListening s).contexts = s.contexts ∧
    (testListening s).engine = s.engine ∧ (testListening s).tracking = s.tracking ∧
    (testListening s).power = s.power ∧ (testListening s).bus = s.bus ∧ (testListening s).config = s.config ∧
    (testListening s).pulse = s.pulse ∧ (testListening s).freeValues = s.freeValues :=
  by
  unfold testListening
  try dsimp only
  (repeat' split) <;> simp

@[simp] theorem listenPulse_keeps (s : State) :
    (listenPulse s).pending = s.pending ∧ (listenPulse s).contexts = s.contexts ∧
    (listenPulse s).engine = s.engine ∧ (listenPulse s).tracking = s.tracking ∧ (listenPulse s).power = s.power ∧
    (listenPulse s).edge = s.edge ∧ (listenPulse s).peers = s.peers ∧ (listenPulse s).config = s.config ∧
    (listenPulse s).pulse = s.pulse ∧ (listenPulse s).freeValues = s.freeValues :=
  by
  unfold listenPulse
  try dsimp only
  (repeat' split) <;> simp

@[simp] theorem testSlip_keeps (s : State) :
    (testSlip s).pending = s.pending ∧ (testSlip s).contexts = s.contexts ∧ (testSlip s).engine = s.engine ∧
    (testSlip s).tracking = s.tracking ∧ (testSlip s).power = s.power ∧ (testSlip s).edge = s.edge ∧
    (testSlip s).bus = s.bus ∧ (testSlip s).peers = s.peers ∧ (testSlip s).align = s.align ∧
    (testSlip s).config = s.config ∧ (testSlip s).pulse = s.pulse ∧ (testSlip s).freeValues = s.freeValues :=
  by
  unfold testSlip
  try dsimp only
  (repeat' split) <;> simp

@[simp] theorem recoverMarker_keeps (p : Epoch) (s : State) :
    (recoverMarker p s).pending = s.pending ∧ (recoverMarker p s).peers = s.peers ∧
    (recoverMarker p s).align = s.align ∧ (recoverMarker p s).config = s.config ∧
    (recoverMarker p s).pulse = s.pulse ∧ (recoverMarker p s).freeValues = s.freeValues :=
  by
  simp [recoverMarker]

@[simp] theorem leaveHolding_keeps (s : State) :
    (leaveHolding s).pending = s.pending ∧ (leaveHolding s).power = s.power ∧ (leaveHolding s).bus = s.bus ∧
    (leaveHolding s).peers = s.peers ∧ (leaveHolding s).config = s.config ∧ (leaveHolding s).pulse = s.pulse ∧
    (leaveHolding s).freeValues = s.freeValues :=
  by
  simp [leaveHolding]

@[simp] theorem markEffect_keeps (p : Epoch) (s : State) :
    (markEffect p s).pending = s.pending ∧ (markEffect p s).peers = s.peers ∧ (markEffect p s).config = s.config ∧
    (markEffect p s).pulse = s.pulse ∧ (markEffect p s).freeValues = s.freeValues :=
  by
  unfold markEffect
  try dsimp only
  (repeat' split) <;> simp

@[simp] theorem beginRun_keeps (e : Epoch) (m : Mode) (s : State) :
    (beginRun e m s).pending = s.pending ∧ (beginRun e m s).contexts = s.contexts ∧
    (beginRun e m s).tracking = s.tracking ∧ (beginRun e m s).edge = s.edge ∧ (beginRun e m s).bus = s.bus ∧
    (beginRun e m s).peers = s.peers ∧ (beginRun e m s).align = s.align ∧ (beginRun e m s).config = s.config ∧
    (beginRun e m s).pulse = s.pulse ∧ (beginRun e m s).freeValues = s.freeValues :=
  by
  simp [beginRun]

@[simp] theorem startRun_keeps (s : State) :
    (startRun s).pending = s.pending ∧ (startRun s).contexts = s.contexts ∧ (startRun s).edge = s.edge ∧
    (startRun s).peers = s.peers ∧ (startRun s).align = s.align ∧ (startRun s).config = s.config ∧
    (startRun s).pulse = s.pulse ∧ (startRun s).freeValues = s.freeValues :=
  by
  unfold startRun
  try dsimp only
  (repeat' split) <;> simp

@[simp] theorem timeoutContext_keeps (i : Index) (s : State) :
    (timeoutContext i s).pending = s.pending ∧ (timeoutContext i s).engine = s.engine ∧
    (timeoutContext i s).tracking = s.tracking ∧ (timeoutContext i s).power = s.power ∧
    (timeoutContext i s).edge = s.edge ∧ (timeoutContext i s).bus = s.bus ∧ (timeoutContext i s).peers = s.peers ∧
    (timeoutContext i s).align = s.align ∧ (timeoutContext i s).config = s.config ∧
    (timeoutContext i s).pulse = s.pulse ∧ (timeoutContext i s).freeValues = s.freeValues :=
  by
  unfold timeoutContext
  try dsimp only
  (repeat' split) <;> simp

@[simp] theorem dormantContext_keeps (i : Index) (s : State) :
    (dormantContext i s).pending = s.pending ∧ (dormantContext i s).engine = s.engine ∧
    (dormantContext i s).tracking = s.tracking ∧ (dormantContext i s).power = s.power ∧
    (dormantContext i s).edge = s.edge ∧ (dormantContext i s).bus = s.bus ∧ (dormantContext i s).peers = s.peers ∧
    (dormantContext i s).align = s.align ∧ (dormantContext i s).config = s.config ∧
    (dormantContext i s).link = s.link ∧ (dormantContext i s).events = s.events ∧
    (dormantContext i s).pulse = s.pulse ∧ (dormantContext i s).freeValues = s.freeValues :=
  by
  unfold dormantContext
  try dsimp only
  (repeat' split) <;> simp

@[simp] theorem stalePeer_keeps (j : Station) (s : State) :
    (stalePeer j s).pending = s.pending ∧ (stalePeer j s).contexts = s.contexts ∧
    (stalePeer j s).engine = s.engine ∧ (stalePeer j s).tracking = s.tracking ∧ (stalePeer j s).power = s.power ∧
    (stalePeer j s).edge = s.edge ∧ (stalePeer j s).bus = s.bus ∧ (stalePeer j s).align = s.align ∧
    (stalePeer j s).config = s.config ∧ (stalePeer j s).link = s.link ∧ (stalePeer j s).events = s.events ∧
    (stalePeer j s).pulse = s.pulse ∧ (stalePeer j s).freeValues = s.freeValues :=
  by
  unfold stalePeer
  try dsimp only
  (repeat' split) <;> simp

@[simp] theorem absentPeer_keeps (j : Station) (s : State) :
    (absentPeer j s).pending = s.pending ∧ (absentPeer j s).contexts = s.contexts ∧
    (absentPeer j s).engine = s.engine ∧ (absentPeer j s).tracking = s.tracking ∧
    (absentPeer j s).power = s.power ∧ (absentPeer j s).edge = s.edge ∧ (absentPeer j s).bus = s.bus ∧
    (absentPeer j s).align = s.align ∧ (absentPeer j s).config = s.config ∧ (absentPeer j s).pulse = s.pulse ∧
    (absentPeer j s).freeValues = s.freeValues :=
  by
  unfold absentPeer
  try dsimp only
  (repeat' split) <;> simp

@[simp] theorem writeHeard_keeps (j : Station) (p : Peer) (s : State) :
    (writeHeard j p s).pending = s.pending ∧ (writeHeard j p s).contexts = s.contexts ∧
    (writeHeard j p s).engine = s.engine ∧ (writeHeard j p s).tracking = s.tracking ∧
    (writeHeard j p s).power = s.power ∧ (writeHeard j p s).edge = s.edge ∧ (writeHeard j p s).bus = s.bus ∧
    (writeHeard j p s).align = s.align ∧ (writeHeard j p s).config = s.config ∧
    (writeHeard j p s).pulse = s.pulse ∧ (writeHeard j p s).freeValues = s.freeValues :=
  by
  unfold writeHeard
  try dsimp only
  (repeat' split) <;> simp

@[simp] theorem unsettle_keeps (b : Bool) (s : State) :
    (unsettle b s).pending = s.pending ∧ (unsettle b s).contexts = s.contexts ∧ (unsettle b s).engine = s.engine ∧
    (unsettle b s).tracking = s.tracking ∧ (unsettle b s).power = s.power ∧ (unsettle b s).edge = s.edge ∧
    (unsettle b s).bus = s.bus ∧ (unsettle b s).align = s.align ∧ (unsettle b s).config = s.config ∧
    (unsettle b s).link = s.link ∧ (unsettle b s).events = s.events ∧ (unsettle b s).pulse = s.pulse ∧
    (unsettle b s).freeValues = s.freeValues :=
  by
  unfold unsettle
  try dsimp only
  (repeat' split) <;> simp

@[simp] theorem passDue_keeps (j : Station) (s : State) :
    (passDue j s).pending = s.pending ∧ (passDue j s).contexts = s.contexts ∧ (passDue j s).engine = s.engine ∧
    (passDue j s).tracking = s.tracking ∧ (passDue j s).power = s.power ∧ (passDue j s).edge = s.edge ∧
    (passDue j s).bus = s.bus ∧ (passDue j s).align = s.align ∧ (passDue j s).config = s.config ∧
    (passDue j s).pulse = s.pulse ∧ (passDue j s).freeValues = s.freeValues :=
  by
  unfold passDue
  try dsimp only
  (repeat' split) <;> simp

@[simp] theorem takeFrame_keeps (j : Station) (b : Bool) (p : Peer) (s : State) :
    (takeFrame j b p s).pending = s.pending ∧ (takeFrame j b p s).contexts = s.contexts ∧
    (takeFrame j b p s).engine = s.engine ∧ (takeFrame j b p s).tracking = s.tracking ∧
    (takeFrame j b p s).power = s.power ∧ (takeFrame j b p s).edge = s.edge ∧ (takeFrame j b p s).bus = s.bus ∧
    (takeFrame j b p s).align = s.align ∧ (takeFrame j b p s).config = s.config ∧
    (takeFrame j b p s).pulse = s.pulse ∧ (takeFrame j b p s).freeValues = s.freeValues :=
  by
  simp [takeFrame]

@[simp] theorem hearAnnounce_keeps (f : AnnounceFrame) (b : Bool) (s : State) :
    (hearAnnounce f b s).pending = s.pending ∧ (hearAnnounce f b s).contexts = s.contexts ∧
    (hearAnnounce f b s).engine = s.engine ∧ (hearAnnounce f b s).tracking = s.tracking ∧
    (hearAnnounce f b s).power = s.power ∧ (hearAnnounce f b s).edge = s.edge ∧ (hearAnnounce f b s).bus = s.bus ∧
    (hearAnnounce f b s).align = s.align ∧ (hearAnnounce f b s).config = s.config ∧
    (hearAnnounce f b s).pulse = s.pulse ∧ (hearAnnounce f b s).freeValues = s.freeValues :=
  by
  unfold hearAnnounce
  try dsimp only
  (repeat' split) <;> simp

@[simp] theorem hearAbility_keeps (f : AbilityFrame) (b : Bool) (s : State) :
    (hearAbility f b s).pending = s.pending ∧ (hearAbility f b s).contexts = s.contexts ∧
    (hearAbility f b s).engine = s.engine ∧ (hearAbility f b s).tracking = s.tracking ∧
    (hearAbility f b s).power = s.power ∧ (hearAbility f b s).edge = s.edge ∧ (hearAbility f b s).bus = s.bus ∧
    (hearAbility f b s).align = s.align ∧ (hearAbility f b s).config = s.config ∧
    (hearAbility f b s).pulse = s.pulse ∧ (hearAbility f b s).freeValues = s.freeValues :=
  by
  unfold hearAbility
  try dsimp only
  (repeat' split) <;> simp

@[simp] theorem judgeBus_keeps (s : State) :
    (judgeBus s).pending = s.pending ∧ (judgeBus s).contexts = s.contexts ∧ (judgeBus s).engine = s.engine ∧
    (judgeBus s).tracking = s.tracking ∧ (judgeBus s).power = s.power ∧ (judgeBus s).edge = s.edge ∧
    (judgeBus s).peers = s.peers ∧ (judgeBus s).align = s.align ∧ (judgeBus s).config = s.config ∧
    (judgeBus s).pulse = s.pulse ∧ (judgeBus s).freeValues = s.freeValues :=
  by
  unfold judgeBus
  try dsimp only
  (repeat' split) <;> simp

@[simp] theorem countEdge_keeps (s : State) :
    (countEdge s).pending = s.pending ∧ (countEdge s).contexts = s.contexts ∧ (countEdge s).engine = s.engine ∧
    (countEdge s).tracking = s.tracking ∧ (countEdge s).power = s.power ∧ (countEdge s).bus = s.bus ∧
    (countEdge s).peers = s.peers ∧ (countEdge s).align = s.align ∧ (countEdge s).config = s.config ∧
    (countEdge s).link = s.link ∧ (countEdge s).events = s.events ∧ (countEdge s).pulse = s.pulse ∧
    (countEdge s).freeValues = s.freeValues :=
  by
  unfold countEdge
  try dsimp only
  (repeat' split) <;> simp

@[simp] theorem takeEntry_keeps (s : State) :
    (takeEntry s).pending = s.pending ∧ (takeEntry s).peers = s.peers ∧ (takeEntry s).config = s.config ∧
    (takeEntry s).freeValues = s.freeValues :=
  by
  unfold takeEntry
  try dsimp only
  (repeat' split) <;> simp

@[simp] theorem takeDecide_keeps (s : State) :
    (takeDecide s).pending = s.pending ∧ (takeDecide s).contexts = s.contexts ∧ (takeDecide s).engine = s.engine ∧
    (takeDecide s).tracking = s.tracking ∧ (takeDecide s).power = s.power ∧ (takeDecide s).bus = s.bus ∧
    (takeDecide s).config = s.config ∧ (takeDecide s).freeValues = s.freeValues :=
  by
  unfold takeDecide
  try dsimp only
  (repeat' split) <;> simp

@[simp] theorem takeStart_keeps (s : State) :
    (takeStart s).pending = s.pending ∧ (takeStart s).contexts = s.contexts ∧ (takeStart s).edge = s.edge ∧
    (takeStart s).peers = s.peers ∧ (takeStart s).align = s.align ∧ (takeStart s).config = s.config ∧
    (takeStart s).freeValues = s.freeValues :=
  by
  unfold takeStart
  try dsimp only
  (repeat' split) <;> simp

@[simp] theorem takeCounts_keeps (s : State) :
    (takeCounts s).pending = s.pending ∧ (takeCounts s).engine = s.engine ∧ (takeCounts s).tracking = s.tracking ∧
    (takeCounts s).power = s.power ∧ (takeCounts s).edge = s.edge ∧ (takeCounts s).bus = s.bus ∧
    (takeCounts s).peers = s.peers ∧ (takeCounts s).align = s.align ∧ (takeCounts s).config = s.config ∧
    (takeCounts s).link = s.link ∧ (takeCounts s).events = s.events ∧ (takeCounts s).freeValues = s.freeValues :=
  by
  unfold takeCounts
  try dsimp only
  (repeat' split) <;> simp

@[simp] theorem takeAgeing_keeps (s : State) :
    (takeAgeing s).pending = s.pending ∧ (takeAgeing s).contexts = s.contexts ∧ (takeAgeing s).engine = s.engine ∧
    (takeAgeing s).tracking = s.tracking ∧ (takeAgeing s).power = s.power ∧ (takeAgeing s).edge = s.edge ∧
    (takeAgeing s).bus = s.bus ∧ (takeAgeing s).align = s.align ∧ (takeAgeing s).config = s.config ∧
    (takeAgeing s).link = s.link ∧ (takeAgeing s).events = s.events ∧ (takeAgeing s).freeValues = s.freeValues :=
  by
  unfold takeAgeing
  try dsimp only
  (repeat' split) <;> simp

@[simp] theorem takeTimeouts_keeps (s : State) :
    (takeTimeouts s).pending = s.pending ∧ (takeTimeouts s).engine = s.engine ∧
    (takeTimeouts s).tracking = s.tracking ∧ (takeTimeouts s).power = s.power ∧ (takeTimeouts s).edge = s.edge ∧
    (takeTimeouts s).bus = s.bus ∧ (takeTimeouts s).peers = s.peers ∧ (takeTimeouts s).align = s.align ∧
    (takeTimeouts s).config = s.config ∧ (takeTimeouts s).pulse = s.pulse ∧
    (takeTimeouts s).freeValues = s.freeValues :=
  by
  unfold takeTimeouts
  exact ⟨(foldl_keep State.pending _ (by intros; simp) _ _).trans (by simp),
    (foldl_keep State.engine _ (by intros; simp) _ _).trans (by simp),
    (foldl_keep State.tracking _ (by intros; simp) _ _).trans (by simp),
    (foldl_keep State.power _ (by intros; simp) _ _).trans (by simp),
    (foldl_keep State.edge _ (by intros; simp) _ _).trans (by simp),
    (foldl_keep State.bus _ (by intros; simp) _ _).trans (by simp),
    (foldl_keep State.peers _ (by intros; simp) _ _).trans (by simp),
    (foldl_keep State.align _ (by intros; simp) _ _).trans (by simp),
    (foldl_keep State.config _ (by intros; simp) _ _).trans (by simp),
    (foldl_keep State.pulse _ (by intros; simp) _ _).trans (by simp),
    (foldl_keep State.freeValues _ (by intros; simp) _ _).trans (by simp)⟩

@[simp] theorem takeDormancy_keeps (s : State) :
    (takeDormancy s).pending = s.pending ∧ (takeDormancy s).engine = s.engine ∧
    (takeDormancy s).tracking = s.tracking ∧ (takeDormancy s).power = s.power ∧ (takeDormancy s).edge = s.edge ∧
    (takeDormancy s).bus = s.bus ∧ (takeDormancy s).peers = s.peers ∧ (takeDormancy s).align = s.align ∧
    (takeDormancy s).config = s.config ∧ (takeDormancy s).link = s.link ∧ (takeDormancy s).events = s.events ∧
    (takeDormancy s).pulse = s.pulse ∧ (takeDormancy s).freeValues = s.freeValues :=
  by
  unfold takeDormancy
  exact ⟨(foldl_keep State.pending _ (by intros; simp) _ _).trans (by simp),
    (foldl_keep State.engine _ (by intros; simp) _ _).trans (by simp),
    (foldl_keep State.tracking _ (by intros; simp) _ _).trans (by simp),
    (foldl_keep State.power _ (by intros; simp) _ _).trans (by simp),
    (foldl_keep State.edge _ (by intros; simp) _ _).trans (by simp),
    (foldl_keep State.bus _ (by intros; simp) _ _).trans (by simp),
    (foldl_keep State.peers _ (by intros; simp) _ _).trans (by simp),
    (foldl_keep State.align _ (by intros; simp) _ _).trans (by simp),
    (foldl_keep State.config _ (by intros; simp) _ _).trans (by simp),
    (foldl_keep State.link _ (by intros; simp) _ _).trans (by simp),
    (foldl_keep State.events _ (by intros; simp) _ _).trans (by simp),
    (foldl_keep State.pulse _ (by intros; simp) _ _).trans (by simp),
    (foldl_keep State.freeValues _ (by intros; simp) _ _).trans (by simp)⟩

@[simp] theorem takeStale_keeps (s : State) :
    (takeStale s).pending = s.pending ∧ (takeStale s).contexts = s.contexts ∧ (takeStale s).engine = s.engine ∧
    (takeStale s).tracking = s.tracking ∧ (takeStale s).power = s.power ∧ (takeStale s).edge = s.edge ∧
    (takeStale s).bus = s.bus ∧ (takeStale s).align = s.align ∧ (takeStale s).config = s.config ∧
    (takeStale s).link = s.link ∧ (takeStale s).events = s.events ∧ (takeStale s).pulse = s.pulse ∧
    (takeStale s).freeValues = s.freeValues :=
  by
  unfold takeStale
  exact ⟨(foldl_keep State.pending _ (by intros; simp) _ _).trans (by simp),
    (foldl_keep State.contexts _ (by intros; simp) _ _).trans (by simp),
    (foldl_keep State.engine _ (by intros; simp) _ _).trans (by simp),
    (foldl_keep State.tracking _ (by intros; simp) _ _).trans (by simp),
    (foldl_keep State.power _ (by intros; simp) _ _).trans (by simp),
    (foldl_keep State.edge _ (by intros; simp) _ _).trans (by simp),
    (foldl_keep State.bus _ (by intros; simp) _ _).trans (by simp),
    (foldl_keep State.align _ (by intros; simp) _ _).trans (by simp),
    (foldl_keep State.config _ (by intros; simp) _ _).trans (by simp),
    (foldl_keep State.link _ (by intros; simp) _ _).trans (by simp),
    (foldl_keep State.events _ (by intros; simp) _ _).trans (by simp),
    (foldl_keep State.pulse _ (by intros; simp) _ _).trans (by simp),
    (foldl_keep State.freeValues _ (by intros; simp) _ _).trans (by simp)⟩

@[simp] theorem takeAbsent_keeps (s : State) :
    (takeAbsent s).pending = s.pending ∧ (takeAbsent s).contexts = s.contexts ∧ (takeAbsent s).engine = s.engine ∧
    (takeAbsent s).tracking = s.tracking ∧ (takeAbsent s).power = s.power ∧ (takeAbsent s).edge = s.edge ∧
    (takeAbsent s).bus = s.bus ∧ (takeAbsent s).align = s.align ∧ (takeAbsent s).config = s.config ∧
    (takeAbsent s).pulse = s.pulse ∧ (takeAbsent s).freeValues = s.freeValues :=
  by
  unfold takeAbsent
  exact ⟨(foldl_keep State.pending _ (by intros; simp) _ _).trans (by simp),
    (foldl_keep State.contexts _ (by intros; simp) _ _).trans (by simp),
    (foldl_keep State.engine _ (by intros; simp) _ _).trans (by simp),
    (foldl_keep State.tracking _ (by intros; simp) _ _).trans (by simp),
    (foldl_keep State.power _ (by intros; simp) _ _).trans (by simp),
    (foldl_keep State.edge _ (by intros; simp) _ _).trans (by simp),
    (foldl_keep State.bus _ (by intros; simp) _ _).trans (by simp),
    (foldl_keep State.align _ (by intros; simp) _ _).trans (by simp),
    (foldl_keep State.config _ (by intros; simp) _ _).trans (by simp),
    (foldl_keep State.pulse _ (by intros; simp) _ _).trans (by simp),
    (foldl_keep State.freeValues _ (by intros; simp) _ _).trans (by simp)⟩

@[simp] theorem takeVoid_keeps (s : State) :
    (takeVoid s).pending = s.pending ∧ (takeVoid s).engine = s.engine ∧ (takeVoid s).power = s.power ∧
    (takeVoid s).edge = s.edge ∧ (takeVoid s).bus = s.bus ∧ (takeVoid s).peers = s.peers ∧
    (takeVoid s).align = s.align ∧ (takeVoid s).config = s.config ∧ (takeVoid s).freeValues = s.freeValues :=
  by
  unfold takeVoid
  try dsimp only
  (repeat' split) <;> simp

@[simp] theorem takeExpiry_keeps (s : State) :
    (takeExpiry s).pending = s.pending ∧ (takeExpiry s).engine = s.engine ∧ (takeExpiry s).power = s.power ∧
    (takeExpiry s).edge = s.edge ∧ (takeExpiry s).bus = s.bus ∧ (takeExpiry s).peers = s.peers ∧
    (takeExpiry s).align = s.align ∧ (takeExpiry s).config = s.config ∧ (takeExpiry s).freeValues = s.freeValues :=
  by
  unfold takeExpiry
  try dsimp only
  (repeat' split) <;> simp

@[simp] theorem takeDrop_keeps (s : State) :
    (takeDrop s).pending = s.pending ∧ (takeDrop s).contexts = s.contexts ∧ (takeDrop s).engine = s.engine ∧
    (takeDrop s).power = s.power ∧ (takeDrop s).edge = s.edge ∧ (takeDrop s).bus = s.bus ∧
    (takeDrop s).peers = s.peers ∧ (takeDrop s).align = s.align ∧ (takeDrop s).config = s.config ∧
    (takeDrop s).freeValues = s.freeValues :=
  by
  unfold takeDrop
  try dsimp only
  (repeat' split) <;> simp

@[simp] theorem takeHoldDown_keeps (s : State) :
    (takeHoldDown s).pending = s.pending ∧ (takeHoldDown s).contexts = s.contexts ∧
    (takeHoldDown s).engine = s.engine ∧ (takeHoldDown s).tracking = s.tracking ∧
    (takeHoldDown s).power = s.power ∧ (takeHoldDown s).bus = s.bus ∧ (takeHoldDown s).peers = s.peers ∧
    (takeHoldDown s).align = s.align ∧ (takeHoldDown s).config = s.config ∧ (takeHoldDown s).link = s.link ∧
    (takeHoldDown s).events = s.events ∧ (takeHoldDown s).freeValues = s.freeValues :=
  by
  unfold takeHoldDown
  try dsimp only
  (repeat' split) <;> simp

@[simp] theorem takeUpdate_keeps (s : State) :
    (takeUpdate s).pending = s.pending ∧ (takeUpdate s).contexts = s.contexts ∧ (takeUpdate s).engine = s.engine ∧
    (takeUpdate s).tracking = s.tracking ∧ (takeUpdate s).power = s.power ∧ (takeUpdate s).bus = s.bus ∧
    (takeUpdate s).peers = s.peers ∧ (takeUpdate s).align = s.align ∧ (takeUpdate s).config = s.config ∧
    (takeUpdate s).link = s.link ∧ (takeUpdate s).events = s.events ∧ (takeUpdate s).freeValues = s.freeValues :=
  by
  unfold takeUpdate
  try dsimp only
  (repeat' split) <;> simp

@[simp] theorem takeTask_keeps (t : PulseTask) (s : State) :
    (takeTask s t).pending = s.pending ∧ (takeTask s t).config = s.config ∧
    (takeTask s t).freeValues = s.freeValues :=
  by
  cases t <;> simp [takeTask, whenHearing] <;> (repeat' split) <;> simp

@[simp] theorem takeTasks_keeps (l : List PulseTask) (s : State) :
    (takeTasks l s).pending = s.pending ∧ (takeTasks l s).config = s.config ∧
    (takeTasks l s).freeValues = s.freeValues :=
  by
  unfold takeTasks
  exact ⟨(foldl_keep State.pending _ (by intros; simp) _ _).trans (by simp),
    (foldl_keep State.config _ (by intros; simp) _ _).trans (by simp),
    (foldl_keep State.freeValues _ (by intros; simp) _ _).trans (by simp)⟩

@[simp] theorem finishPulse_keeps (s : State) :
    (finishPulse s).pending = s.pending ∧ (finishPulse s).config = s.config ∧
    (finishPulse s).freeValues = s.freeValues :=
  by
  unfold finishPulse
  try dsimp only
  (repeat' split) <;> simp

@[simp] theorem pulseArrives_keeps (n : Nat) (s : State) :
    (pulseArrives n s).pending = s.pending ∧ (pulseArrives n s).engine = s.engine ∧
    (pulseArrives n s).power = s.power ∧ (pulseArrives n s).peers = s.peers ∧
    (pulseArrives n s).config = s.config ∧ (pulseArrives n s).freeValues = s.freeValues :=
  by
  simp [pulseArrives]

@[simp] theorem markArrives_keeps (n : Nat) (s : State) :
    (markArrives n s).pending = s.pending ∧ (markArrives n s).peers = s.peers ∧
    (markArrives n s).config = s.config ∧ (markArrives n s).freeValues = s.freeValues :=
  by
  unfold markArrives
  dsimp only
  split <;> simp

@[simp] theorem joinFifo_keeps (r : Record) (s : State) :
    (joinFifo r s).pending = s.pending ∧ (joinFifo r s).contexts = s.contexts ∧ (joinFifo r s).engine = s.engine ∧
    (joinFifo r s).tracking = s.tracking ∧ (joinFifo r s).power = s.power ∧ (joinFifo r s).edge = s.edge ∧
    (joinFifo r s).bus = s.bus ∧ (joinFifo r s).peers = s.peers ∧ (joinFifo r s).align = s.align ∧
    (joinFifo r s).config = s.config ∧ (joinFifo r s).pulse = s.pulse ∧ (joinFifo r s).freeValues = s.freeValues :=
  by
  unfold joinFifo
  try dsimp only
  (repeat' split) <;> simp

@[simp] theorem discardMalformed_keeps (n : Nat) (c : Code) (s : State) :
    (discardMalformed n c s).pending = s.pending ∧ (discardMalformed n c s).contexts = s.contexts ∧
    (discardMalformed n c s).engine = s.engine ∧ (discardMalformed n c s).tracking = s.tracking ∧
    (discardMalformed n c s).power = s.power ∧ (discardMalformed n c s).edge = s.edge ∧
    (discardMalformed n c s).bus = s.bus ∧ (discardMalformed n c s).peers = s.peers ∧
    (discardMalformed n c s).align = s.align ∧ (discardMalformed n c s).config = s.config ∧
    (discardMalformed n c s).pulse = s.pulse ∧ (discardMalformed n c s).freeValues = s.freeValues :=
  by
  simp [discardMalformed]

@[simp] theorem discardReceived_keeps (b : Option Byte) (c : Code) (s : State) :
    (discardReceived b c s).pending = s.pending ∧ (discardReceived b c s).contexts = s.contexts ∧
    (discardReceived b c s).engine = s.engine ∧ (discardReceived b c s).tracking = s.tracking ∧
    (discardReceived b c s).power = s.power ∧ (discardReceived b c s).edge = s.edge ∧
    (discardReceived b c s).bus = s.bus ∧ (discardReceived b c s).peers = s.peers ∧
    (discardReceived b c s).align = s.align ∧ (discardReceived b c s).config = s.config ∧
    (discardReceived b c s).pulse = s.pulse :=
  by
  unfold discardReceived
  try dsimp only
  (repeat' split) <;> simp

@[simp] theorem loseLink_keeps (s : State) :
    (loseLink s).pending = s.pending ∧ (loseLink s).peers = s.peers ∧ (loseLink s).config = s.config ∧
    (loseLink s).pulse = s.pulse ∧ (loseLink s).freeValues = s.freeValues :=
  by
  unfold loseLink
  try dsimp only
  (repeat' split) <;> simp

@[simp] theorem takeReception_keeps (r : Reception) (s : State) :
    (takeReception r s).pending = s.pending ∧ (takeReception r s).contexts = s.contexts ∧
    (takeReception r s).engine = s.engine ∧ (takeReception r s).tracking = s.tracking ∧
    (takeReception r s).power = s.power ∧ (takeReception r s).edge = s.edge ∧ (takeReception r s).bus = s.bus ∧
    (takeReception r s).peers = s.peers ∧ (takeReception r s).align = s.align ∧
    (takeReception r s).config = s.config ∧ (takeReception r s).pulse = s.pulse :=
  by
  unfold takeReception
  try dsimp only
  (repeat' split) <;> simp

@[simp] theorem hearIdle_keeps (n : Nat) (s : State) :
    (hearIdle n s).pending = s.pending ∧ (hearIdle n s).contexts = s.contexts ∧ (hearIdle n s).engine = s.engine ∧
    (hearIdle n s).tracking = s.tracking ∧ (hearIdle n s).power = s.power ∧ (hearIdle n s).edge = s.edge ∧
    (hearIdle n s).bus = s.bus ∧ (hearIdle n s).peers = s.peers ∧ (hearIdle n s).align = s.align ∧
    (hearIdle n s).config = s.config ∧ (hearIdle n s).events = s.events ∧ (hearIdle n s).pulse = s.pulse ∧
    (hearIdle n s).freeValues = s.freeValues :=
  by
  unfold hearIdle
  try dsimp only
  (repeat' split) <;> simp

@[simp] theorem refuseNotReady_keeps (r : Record) (s : State) :
    (refuseNotReady r s).pending = s.pending ∧ (refuseNotReady r s).contexts = s.contexts ∧
    (refuseNotReady r s).engine = s.engine ∧ (refuseNotReady r s).tracking = s.tracking ∧
    (refuseNotReady r s).power = s.power ∧ (refuseNotReady r s).edge = s.edge ∧ (refuseNotReady r s).bus = s.bus ∧
    (refuseNotReady r s).peers = s.peers ∧ (refuseNotReady r s).align = s.align ∧
    (refuseNotReady r s).config = s.config ∧ (refuseNotReady r s).pulse = s.pulse ∧
    (refuseNotReady r s).freeValues = s.freeValues :=
  by
  simp [refuseNotReady]

@[simp] theorem sendHead_keeps (s : State) :
    (sendHead s).pending = s.pending ∧ (sendHead s).contexts = s.contexts ∧ (sendHead s).engine = s.engine ∧
    (sendHead s).tracking = s.tracking ∧ (sendHead s).power = s.power ∧ (sendHead s).edge = s.edge ∧
    (sendHead s).bus = s.bus ∧ (sendHead s).peers = s.peers ∧ (sendHead s).align = s.align ∧
    (sendHead s).config = s.config ∧ (sendHead s).events = s.events ∧ (sendHead s).pulse = s.pulse ∧
    (sendHead s).freeValues = s.freeValues :=
  by
  unfold sendHead
  try dsimp only
  (repeat' split) <;> simp

@[simp] theorem refuseAttach_keeps (i : Index) (c : Code) (s : State) :
    (refuseAttach i c s).pending = s.pending ∧ (refuseAttach i c s).contexts = s.contexts ∧
    (refuseAttach i c s).engine = s.engine ∧ (refuseAttach i c s).tracking = s.tracking ∧
    (refuseAttach i c s).power = s.power ∧ (refuseAttach i c s).edge = s.edge ∧ (refuseAttach i c s).bus = s.bus ∧
    (refuseAttach i c s).peers = s.peers ∧ (refuseAttach i c s).align = s.align ∧
    (refuseAttach i c s).config = s.config ∧ (refuseAttach i c s).pulse = s.pulse ∧
    (refuseAttach i c s).freeValues = s.freeValues :=
  by
  simp [refuseAttach]

@[simp] theorem refuseRelease_keeps (i : Index) (c : Code) (s : State) :
    (refuseRelease i c s).pending = s.pending ∧ (refuseRelease i c s).contexts = s.contexts ∧
    (refuseRelease i c s).engine = s.engine ∧ (refuseRelease i c s).tracking = s.tracking ∧
    (refuseRelease i c s).power = s.power ∧ (refuseRelease i c s).edge = s.edge ∧
    (refuseRelease i c s).bus = s.bus ∧ (refuseRelease i c s).peers = s.peers ∧
    (refuseRelease i c s).align = s.align ∧ (refuseRelease i c s).config = s.config ∧
    (refuseRelease i c s).pulse = s.pulse ∧ (refuseRelease i c s).freeValues = s.freeValues :=
  by
  simp [refuseRelease]

@[simp] theorem takeAttach_keeps (i : Index) (a b c d : Nat) (s : State) :
    (takeAttach i a b c d s).pending = s.pending ∧ (takeAttach i a b c d s).engine = s.engine ∧
    (takeAttach i a b c d s).tracking = s.tracking ∧ (takeAttach i a b c d s).power = s.power ∧
    (takeAttach i a b c d s).edge = s.edge ∧ (takeAttach i a b c d s).bus = s.bus ∧
    (takeAttach i a b c d s).peers = s.peers ∧ (takeAttach i a b c d s).align = s.align ∧
    (takeAttach i a b c d s).config = s.config ∧ (takeAttach i a b c d s).pulse = s.pulse ∧
    (takeAttach i a b c d s).freeValues = s.freeValues :=
  by
  unfold takeAttach
  try dsimp only
  (repeat' split) <;> simp

@[simp] theorem acceptRelease_keeps (i : Index) (s : State) :
    (acceptRelease i s).pending = s.pending ∧ (acceptRelease i s).engine = s.engine ∧
    (acceptRelease i s).power = s.power ∧ (acceptRelease i s).edge = s.edge ∧ (acceptRelease i s).bus = s.bus ∧
    (acceptRelease i s).peers = s.peers ∧ (acceptRelease i s).align = s.align ∧
    (acceptRelease i s).config = s.config ∧ (acceptRelease i s).pulse = s.pulse ∧
    (acceptRelease i s).freeValues = s.freeValues :=
  by
  unfold acceptRelease
  dsimp only
  split <;> simp

@[simp] theorem takeRelease_keeps (i : Index) (s : State) :
    (takeRelease i s).pending = s.pending ∧ (takeRelease i s).engine = s.engine ∧
    (takeRelease i s).power = s.power ∧ (takeRelease i s).edge = s.edge ∧ (takeRelease i s).bus = s.bus ∧
    (takeRelease i s).peers = s.peers ∧ (takeRelease i s).align = s.align ∧ (takeRelease i s).config = s.config ∧
    (takeRelease i s).pulse = s.pulse ∧ (takeRelease i s).freeValues = s.freeValues :=
  by
  unfold takeRelease
  try dsimp only
  (repeat' split) <;> simp

@[simp] theorem addDlData_keeps (i : Index) (n : Nat) (s : State) :
    (addDlData i n s).pending = s.pending ∧ (addDlData i n s).engine = s.engine ∧
    (addDlData i n s).tracking = s.tracking ∧ (addDlData i n s).power = s.power ∧ (addDlData i n s).edge = s.edge ∧
    (addDlData i n s).bus = s.bus ∧ (addDlData i n s).peers = s.peers ∧ (addDlData i n s).align = s.align ∧
    (addDlData i n s).config = s.config ∧ (addDlData i n s).pulse = s.pulse ∧
    (addDlData i n s).freeValues = s.freeValues :=
  by
  unfold addDlData
  try dsimp only
  (repeat' split) <;> simp

@[simp] theorem writeUlBuf_keeps (i : Index) (n : Nat) (s : State) :
    (writeUlBuf i n s).pending = s.pending ∧ (writeUlBuf i n s).engine = s.engine ∧
    (writeUlBuf i n s).tracking = s.tracking ∧ (writeUlBuf i n s).power = s.power ∧
    (writeUlBuf i n s).edge = s.edge ∧ (writeUlBuf i n s).bus = s.bus ∧ (writeUlBuf i n s).peers = s.peers ∧
    (writeUlBuf i n s).align = s.align ∧ (writeUlBuf i n s).config = s.config ∧
    (writeUlBuf i n s).pulse = s.pulse ∧ (writeUlBuf i n s).freeValues = s.freeValues :=
  by
  unfold writeUlBuf
  try dsimp only
  (repeat' split) <;> simp

@[simp] theorem writeGrades_keeps (i : Index) (a b : Nat) (s : State) :
    (writeGrades i a b s).pending = s.pending ∧ (writeGrades i a b s).engine = s.engine ∧
    (writeGrades i a b s).tracking = s.tracking ∧ (writeGrades i a b s).power = s.power ∧
    (writeGrades i a b s).edge = s.edge ∧ (writeGrades i a b s).bus = s.bus ∧
    (writeGrades i a b s).peers = s.peers ∧ (writeGrades i a b s).align = s.align ∧
    (writeGrades i a b s).config = s.config ∧ (writeGrades i a b s).link = s.link ∧
    (writeGrades i a b s).events = s.events ∧ (writeGrades i a b s).pulse = s.pulse ∧
    (writeGrades i a b s).freeValues = s.freeValues :=
  by
  simp [writeGrades]

@[simp] theorem writeRange_keeps (i : Index) (n : Nat) (s : State) :
    (writeRange i n s).pending = s.pending ∧ (writeRange i n s).engine = s.engine ∧
    (writeRange i n s).tracking = s.tracking ∧ (writeRange i n s).power = s.power ∧
    (writeRange i n s).edge = s.edge ∧ (writeRange i n s).bus = s.bus ∧ (writeRange i n s).peers = s.peers ∧
    (writeRange i n s).align = s.align ∧ (writeRange i n s).config = s.config ∧
    (writeRange i n s).pulse = s.pulse ∧ (writeRange i n s).freeValues = s.freeValues :=
  by
  simp [writeRange]

@[simp] theorem countLate_keeps (i : Index) (n : Nat) (s : State) :
    (countLate i n s).pending = s.pending ∧ (countLate i n s).engine = s.engine ∧
    (countLate i n s).tracking = s.tracking ∧ (countLate i n s).power = s.power ∧ (countLate i n s).edge = s.edge ∧
    (countLate i n s).bus = s.bus ∧ (countLate i n s).peers = s.peers ∧ (countLate i n s).align = s.align ∧
    (countLate i n s).config = s.config ∧ (countLate i n s).pulse = s.pulse ∧
    (countLate i n s).freeValues = s.freeValues :=
  by
  simp [countLate]

@[simp] theorem takeQuery_keeps (i : Index) (s : State) :
    (takeQuery i s).pending = s.pending ∧ (takeQuery i s).contexts = s.contexts ∧
    (takeQuery i s).engine = s.engine ∧ (takeQuery i s).tracking = s.tracking ∧ (takeQuery i s).power = s.power ∧
    (takeQuery i s).edge = s.edge ∧ (takeQuery i s).bus = s.bus ∧ (takeQuery i s).peers = s.peers ∧
    (takeQuery i s).align = s.align ∧ (takeQuery i s).config = s.config ∧ (takeQuery i s).events = s.events ∧
    (takeQuery i s).pulse = s.pulse ∧ (takeQuery i s).freeValues = s.freeValues :=
  by
  simp [takeQuery]

@[simp] theorem strayReceipt_keeps (k : EventKind) (e : Epoch) (c : Code) (s : State) :
    (strayReceipt k e c s).pending = s.pending ∧ (strayReceipt k e c s).contexts = s.contexts ∧
    (strayReceipt k e c s).engine = s.engine ∧ (strayReceipt k e c s).tracking = s.tracking ∧
    (strayReceipt k e c s).power = s.power ∧ (strayReceipt k e c s).edge = s.edge ∧
    (strayReceipt k e c s).bus = s.bus ∧ (strayReceipt k e c s).peers = s.peers ∧
    (strayReceipt k e c s).align = s.align ∧ (strayReceipt k e c s).config = s.config ∧
    (strayReceipt k e c s).pulse = s.pulse ∧ (strayReceipt k e c s).freeValues = s.freeValues :=
  by
  simp [strayReceipt]

@[simp] theorem takeReceipt_keeps (e : Epoch) (s : State) :
    (takeReceipt e s).pending = s.pending ∧ (takeReceipt e s).contexts = s.contexts ∧
    (takeReceipt e s).engine = s.engine ∧ (takeReceipt e s).power = s.power ∧ (takeReceipt e s).edge = s.edge ∧
    (takeReceipt e s).bus = s.bus ∧ (takeReceipt e s).peers = s.peers ∧ (takeReceipt e s).align = s.align ∧
    (takeReceipt e s).config = s.config ∧ (takeReceipt e s).pulse = s.pulse ∧
    (takeReceipt e s).freeValues = s.freeValues :=
  by
  unfold takeReceipt
  try dsimp only
  (repeat' split) <;> simp

@[simp] theorem strayFeedback_keeps (e : Epoch) (c : Code) (s : State) :
    (strayFeedback e c s).pending = s.pending ∧ (strayFeedback e c s).contexts = s.contexts ∧
    (strayFeedback e c s).engine = s.engine ∧ (strayFeedback e c s).tracking = s.tracking ∧
    (strayFeedback e c s).power = s.power ∧ (strayFeedback e c s).edge = s.edge ∧
    (strayFeedback e c s).bus = s.bus ∧ (strayFeedback e c s).peers = s.peers ∧
    (strayFeedback e c s).align = s.align ∧ (strayFeedback e c s).config = s.config ∧
    (strayFeedback e c s).pulse = s.pulse ∧ (strayFeedback e c s).freeValues = s.freeValues :=
  by
  simp [strayFeedback]

@[simp] theorem takeFeedback_keeps (e : Epoch) (p : Nat) (f : Bool) (s : State) :
    (takeFeedback e p f s).pending = s.pending ∧ (takeFeedback e p f s).engine = s.engine ∧
    (takeFeedback e p f s).power = s.power ∧ (takeFeedback e p f s).edge = s.edge ∧
    (takeFeedback e p f s).bus = s.bus ∧ (takeFeedback e p f s).peers = s.peers ∧
    (takeFeedback e p f s).align = s.align ∧ (takeFeedback e p f s).config = s.config ∧
    (takeFeedback e p f s).pulse = s.pulse ∧ (takeFeedback e p f s).freeValues = s.freeValues :=
  by
  unfold takeFeedback
  try dsimp only
  (repeat' split) <;> simp

@[simp] theorem acceptConfig_keeps (b : ConfigBody) (s : State) :
    (acceptConfig b s).pending = s.pending ∧ (acceptConfig b s).contexts = s.contexts ∧
    (acceptConfig b s).engine = s.engine ∧ (acceptConfig b s).tracking = s.tracking ∧
    (acceptConfig b s).edge = s.edge ∧ (acceptConfig b s).pulse = s.pulse ∧
    (acceptConfig b s).freeValues = s.freeValues :=
  by
  simp [acceptConfig]

@[simp] theorem takeConfig_keeps (b : ConfigBody) (s : State) :
    (takeConfig b s).pending = s.pending ∧ (takeConfig b s).contexts = s.contexts ∧
    (takeConfig b s).engine = s.engine ∧ (takeConfig b s).tracking = s.tracking ∧ (takeConfig b s).edge = s.edge ∧
    (takeConfig b s).pulse = s.pulse ∧ (takeConfig b s).freeValues = s.freeValues :=
  by
  unfold takeConfig
  try dsimp only
  (repeat' split) <;> simp

@[simp] theorem acceptRealign_keeps (s : State) :
    (acceptRealign s).pending = s.pending ∧ (acceptRealign s).config = s.config ∧
    (acceptRealign s).pulse = s.pulse ∧ (acceptRealign s).freeValues = s.freeValues :=
  by
  simp [acceptRealign]

@[simp] theorem takeStatusReq_keeps (z : Bool) (s : State) :
    (takeStatusReq z s).pending = s.pending ∧ (takeStatusReq z s).contexts = s.contexts ∧
    (takeStatusReq z s).engine = s.engine ∧ (takeStatusReq z s).tracking = s.tracking ∧
    (takeStatusReq z s).power = s.power ∧ (takeStatusReq z s).edge = s.edge ∧ (takeStatusReq z s).bus = s.bus ∧
    (takeStatusReq z s).peers = s.peers ∧ (takeStatusReq z s).align = s.align ∧
    (takeStatusReq z s).config = s.config ∧ (takeStatusReq z s).pulse = s.pulse ∧
    (takeStatusReq z s).freeValues = s.freeValues :=
  by
  unfold takeStatusReq
  try dsimp only
  (repeat' split) <;> simp

@[simp] theorem idleDetected_keeps (s : State) :
    (idleDetected s).pending = s.pending ∧ (idleDetected s).contexts = s.contexts ∧
    (idleDetected s).engine = s.engine ∧ (idleDetected s).tracking = s.tracking ∧
    (idleDetected s).power = s.power ∧ (idleDetected s).edge = s.edge ∧ (idleDetected s).peers = s.peers ∧
    (idleDetected s).align = s.align ∧ (idleDetected s).config = s.config ∧ (idleDetected s).link = s.link ∧
    (idleDetected s).events = s.events ∧ (idleDetected s).pulse = s.pulse ∧
    (idleDetected s).freeValues = s.freeValues :=
  by
  unfold idleDetected
  try dsimp only
  (repeat' split) <;> simp

@[simp] theorem deferralEnds_keeps (s : State) :
    (deferralEnds s).pending = s.pending ∧ (deferralEnds s).contexts = s.contexts ∧
    (deferralEnds s).engine = s.engine ∧ (deferralEnds s).tracking = s.tracking ∧
    (deferralEnds s).power = s.power ∧ (deferralEnds s).edge = s.edge ∧ (deferralEnds s).peers = s.peers ∧
    (deferralEnds s).align = s.align ∧ (deferralEnds s).config = s.config ∧ (deferralEnds s).link = s.link ∧
    (deferralEnds s).events = s.events ∧ (deferralEnds s).pulse = s.pulse ∧
    (deferralEnds s).freeValues = s.freeValues :=
  by
  unfold deferralEnds
  try dsimp only
  (repeat' split) <;> simp

@[simp] theorem deferralBreaks_keeps (n : Nat) (s : State) :
    (deferralBreaks n s).pending = s.pending ∧ (deferralBreaks n s).contexts = s.contexts ∧
    (deferralBreaks n s).engine = s.engine ∧ (deferralBreaks n s).tracking = s.tracking ∧
    (deferralBreaks n s).power = s.power ∧ (deferralBreaks n s).edge = s.edge ∧
    (deferralBreaks n s).peers = s.peers ∧ (deferralBreaks n s).align = s.align ∧
    (deferralBreaks n s).config = s.config ∧ (deferralBreaks n s).link = s.link ∧
    (deferralBreaks n s).events = s.events ∧ (deferralBreaks n s).pulse = s.pulse ∧
    (deferralBreaks n s).freeValues = s.freeValues :=
  by
  unfold deferralBreaks
  try dsimp only
  (repeat' split) <;> simp

@[simp] theorem frameGone_keeps (s : State) :
    (frameGone s).pending = s.pending ∧ (frameGone s).contexts = s.contexts ∧ (frameGone s).engine = s.engine ∧
    (frameGone s).tracking = s.tracking ∧ (frameGone s).power = s.power ∧ (frameGone s).edge = s.edge ∧
    (frameGone s).peers = s.peers ∧ (frameGone s).align = s.align ∧ (frameGone s).config = s.config ∧
    (frameGone s).link = s.link ∧ (frameGone s).events = s.events ∧ (frameGone s).pulse = s.pulse ∧
    (frameGone s).freeValues = s.freeValues :=
  by
  unfold frameGone
  try dsimp only
  (repeat' split) <;> simp

@[simp] theorem collide_keeps (s : State) :
    (collide s).pending = s.pending ∧ (collide s).contexts = s.contexts ∧ (collide s).engine = s.engine ∧
    (collide s).tracking = s.tracking ∧ (collide s).power = s.power ∧ (collide s).edge = s.edge ∧
    (collide s).peers = s.peers ∧ (collide s).align = s.align ∧ (collide s).config = s.config ∧
    (collide s).pulse = s.pulse ∧ (collide s).freeValues = s.freeValues :=
  by
  unfold collide
  try dsimp only
  (repeat' split) <;> simp

@[simp] theorem cutOff_keeps (s : State) :
    (cutOff s).pending = s.pending ∧ (cutOff s).contexts = s.contexts ∧ (cutOff s).engine = s.engine ∧
    (cutOff s).tracking = s.tracking ∧ (cutOff s).power = s.power ∧ (cutOff s).edge = s.edge ∧
    (cutOff s).peers = s.peers ∧ (cutOff s).align = s.align ∧ (cutOff s).config = s.config ∧
    (cutOff s).pulse = s.pulse ∧ (cutOff s).freeValues = s.freeValues :=
  by
  unfold cutOff
  try dsimp only
  (repeat' split) <;> simp

@[simp] theorem discardFrame_keeps (s : State) :
    (discardFrame s).pending = s.pending ∧ (discardFrame s).contexts = s.contexts ∧
    (discardFrame s).engine = s.engine ∧ (discardFrame s).tracking = s.tracking ∧
    (discardFrame s).power = s.power ∧ (discardFrame s).edge = s.edge ∧ (discardFrame s).bus = s.bus ∧
    (discardFrame s).peers = s.peers ∧ (discardFrame s).align = s.align ∧ (discardFrame s).config = s.config ∧
    (discardFrame s).pulse = s.pulse ∧ (discardFrame s).freeValues = s.freeValues :=
  by
  simp [discardFrame]

@[simp] theorem hearBytes_keeps (l : List Byte) (b : Bool) (s : State) :
    (hearBytes l b s).pending = s.pending ∧ (hearBytes l b s).contexts = s.contexts ∧
    (hearBytes l b s).engine = s.engine ∧ (hearBytes l b s).tracking = s.tracking ∧
    (hearBytes l b s).power = s.power ∧ (hearBytes l b s).edge = s.edge ∧ (hearBytes l b s).bus = s.bus ∧
    (hearBytes l b s).align = s.align ∧ (hearBytes l b s).config = s.config ∧ (hearBytes l b s).pulse = s.pulse ∧
    (hearBytes l b s).freeValues = s.freeValues :=
  by
  unfold hearBytes
  try dsimp only
  (repeat' split) <;> simp

@[simp] theorem loseEpoch_keeps (s : State) :
    (loseEpoch s).pending = s.pending ∧ (loseEpoch s).peers = s.peers ∧ (loseEpoch s).config = s.config ∧
    (loseEpoch s).pulse = s.pulse ∧ (loseEpoch s).freeValues = s.freeValues :=
  by
  unfold loseEpoch
  try dsimp only
  (repeat' split) <;> simp

@[simp] theorem takeLine_keeps (n : Nat) (l : List Byte) (s : State) :
    (takeLine n l s).pending = s.pending ∧ (takeLine n l s).contexts = s.contexts ∧
    (takeLine n l s).engine = s.engine ∧ (takeLine n l s).tracking = s.tracking ∧
    (takeLine n l s).power = s.power ∧ (takeLine n l s).edge = s.edge ∧ (takeLine n l s).bus = s.bus ∧
    (takeLine n l s).peers = s.peers ∧ (takeLine n l s).align = s.align ∧ (takeLine n l s).config = s.config ∧
    (takeLine n l s).pulse = s.pulse := by
  induction n generalizing l s with
  | zero => simp [takeLine]
  | succ n ih =>
    cases l with
    | nil => simp [takeLine]
    | cons b rest =>
      unfold takeLine
      split
      · simp [ih]
      · split <;> simp [ih]

end Sys2Proof.Machine
end

