-- ==== Sys2Proof/Laws/Reports.lean ====
section
/-!
SUPPORT. What a report can do: the operations that set events and advance counters touch the Event Unit and the outbound
queue only, and keep the bounds of both.
-/
namespace Sys2Proof.Machine

/-! ## Flags, counters and the ALERT line -/

/-- Different events have different numbers. -/
theorem EventKind.num_inj {j k : EventKind} (h : j.num = k.num) : j = k := by
  cases j <;> cases k <;> first | rfl | (simp [EventKind.num] at h)

/-- Every number fits the masks of the Event Unit. -/
theorem EventKind.num_lt (k : EventKind) : k.num < 29 := by cases k <;> decide

/-- Different counters have different numbers. -/
theorem Counter.num_inj {c d : Counter} (h : c.num = d.num) : c = d := by
  cases c <;> cases d <;> first | rfl | (simp [Counter.num] at h)

/-- Setting an event sets its own flag and leaves the others. -/
@[simp] theorem flag_raise (e : EventUnit) (k j : EventKind) :
    (e.raise k).flag j = (e.flag j || decide (j = k)) := by
  have hj := j.num_lt
  have hk : (1#29 <<< k.num).getLsbD j.num = decide (j = k) := by
    by_cases h : j = k
    · subst h; simp [hj]
    · have : j.num ≠ k.num := fun e => h (EventKind.num_inj e)
      simp [hj, h]; omega
  simp [EventUnit.raise, EventUnit.judged, EventUnit.flag, EventKind.bit, hk]

/-- After a flag is set ALERT follows the flags. -/
@[simp] theorem alert_raise (e : EventUnit) (k : EventKind) : (e.raise k).alert = (e.raise k).alertLevel := rfl

/-- Setting a flag leaves the settings, the counters and the remainder. -/
@[simp] theorem raise_keeps (e : EventUnit) (k : EventKind) :
    (e.raise k).enables = e.enables ∧ (e.raise k).levels = e.levels ∧ (e.raise k).threshold = e.threshold ∧
    (e.raise k).counters = e.counters ∧ (e.raise k).remainder = e.remainder :=
  ⟨rfl, rfl, rfl, rfl, rfl⟩

/-- An advance is read back, and leaves the other counters. -/
theorem counter_advanced (e : EventUnit) (c d : Counter) (n : Nat) :
    (e.advanced c n).counter d = if d = c then min Config.counterMax (e.counter c + n) else e.counter d := by
  unfold EventUnit.advanced EventUnit.counter
  rw [Table.get_set]
  by_cases h : d = c
  · simp [h]
  · have : d.num ≠ c.num := fun e => h (Counter.num_inj e)
    simp [h, this]

/-- An advance leaves the flags, the settings, the line and the remainder. -/
@[simp] theorem advanced_keeps (e : EventUnit) (c : Counter) (n : Nat) :
    (e.advanced c n).flags = e.flags ∧ (e.advanced c n).enables = e.enables ∧ (e.advanced c n).levels = e.levels ∧
    (e.advanced c n).threshold = e.threshold ∧ (e.advanced c n).alert = e.alert ∧
    (e.advanced c n).remainder = e.remainder :=
  ⟨rfl, rfl, rfl, rfl, rfl, rfl⟩

/-- The ALERT level sees the flags and the settings only. -/
theorem alertLevel_congr {e f : EventUnit} (h1 : f.flags = e.flags) (h2 : f.enables = e.enables)
    (h3 : f.levels = e.levels) (h4 : f.threshold = e.threshold) : f.alertLevel = e.alertLevel := by
  obtain ⟨_, _, _, _, _, _, _⟩ := e
  obtain ⟨_, _, _, _, _, _, _⟩ := f
  dsimp only at h1 h2 h3 h4
  subst h1 h2 h3 h4
  rfl

/-! ## The relation -/

/-- From `s` to `t` some events were set and some counters advanced, and nothing else happened. -/
structure Reports (s t : State) : Prop where
  /-- Only the Event Unit and the link port differ. -/
  frame : t = { s with events := t.events, link := t.link }
  /-- The link port differs by NOTICEs at the tail of the queue. -/
  queued : ∃ ns : List Notice, t.link = { s.link with queue := s.link.queue ++ ns.map OutRecord.notice }
  /-- The queue does not pass its depth (R163). -/
  room : s.link.queue.length ≤ Config.outboundDepth → t.link.queue.length ≤ Config.outboundDepth
  /-- No flag is cleared. -/
  flags : ∀ k, s.events.flag k = true → t.events.flag k = true
  /-- The settings stay. -/
  settings : t.events.enables = s.events.enables ∧ t.events.levels = s.events.levels ∧
    t.events.threshold = s.events.threshold
  /-- ALERT still follows the flags (R167). -/
  alert : s.events.alert = s.events.alertLevel → t.events.alert = t.events.alertLevel
  /-- The counters stay bounded (R169). -/
  counters : (∀ c, s.events.counters.get c ≤ Config.counterMax) → ∀ c, t.events.counters.get c ≤ Config.counterMax

/-- Nothing is a report. -/
theorem Reports.refl (s : State) : Reports s s :=
  ⟨rfl, ⟨[], by simp⟩, id, fun _ h => h, ⟨rfl, rfl, rfl⟩, id, id⟩

/-- Reports follow one another. -/
theorem Reports.trans {s t u : State} (h : Reports s t) (g : Reports t u) : Reports s u where
  frame := by rw [g.frame, h.frame]
  queued := by
    obtain ⟨ns, hn⟩ := h.queued
    obtain ⟨ms, hm⟩ := g.queued
    exact ⟨ns ++ ms, by rw [hm, hn]; simp⟩
  room := fun a => g.room (h.room a)
  flags := fun k a => g.flags k (h.flags k a)
  settings := ⟨g.settings.1.trans h.settings.1, g.settings.2.1.trans h.settings.2.1,
    g.settings.2.2.trans h.settings.2.2⟩
  alert := fun a => g.alert (h.alert a)
  counters := fun a => g.counters (h.counters a)

/-- What a report leaves of the link port. -/
theorem Reports.link_keeps {s t : State} (h : Reports s t) :
    t.link.fifo = s.link.fifo ∧ t.link.ready = s.link.ready ∧ t.link.lost = s.link.lost ∧
    t.link.timer = s.link.timer ∧ t.link.lastOut = s.link.lastOut := by
  obtain ⟨ns, hn⟩ := h.queued
  rw [hn]
  exact ⟨rfl, rfl, rfl, rfl, rfl⟩

/-- A report queues no PLAN: a PLAN in the queue was there before. -/
theorem Reports.plan_mem {s t : State} (h : Reports s t) {p : Plan} (hp : OutRecord.plan p ∈ t.link.queue) :
    OutRecord.plan p ∈ s.link.queue := by
  obtain ⟨ns, hn⟩ := h.queued
  rw [hn] at hp
  simpa using hp

/-! ## The reporting operations -/

/-- A NOTICE handed over is queued with more than 8 free entries and dropped otherwise. -/
theorem offerNotice_eq (l : LinkPort) (n : Notice) :
    l.offerNotice n =
      if Config.noticeReserve < Config.outboundDepth - l.queue.length then
        { l with queue := l.queue ++ [.notice n] }
      else l := by
  unfold LinkPort.offerNotice LinkPort.outboundFree LinkPort.enqueue
  split <;> split <;> first | rfl | omega

/-- Setting an event is a report. -/
theorem setEvent_reports (k : EventKind) (n : Nat) (c : Code) (s : State) : Reports s (setEvent k n c s) where
  frame := rfl
  queued := by
    unfold setEvent
    dsimp only
    split
    · rw [offerNotice_eq]
      split
      · exact ⟨[_], rfl⟩
      · exact ⟨[], by simp⟩
    · exact ⟨[], by simp⟩
  room := by
    intro h
    unfold setEvent
    dsimp only
    split
    · rw [offerNotice_eq]
      split
      · rename_i hr
        simp only [Config.noticeReserve, Config.outboundDepth] at hr ⊢
        simp
        omega
      · exact h
    · exact h
  flags := by
    intro j h
    simp [h]
  settings := by simp
  alert := by intro; simp
  counters := by intro h; simpa using h

/-- Advancing a counter is a report. -/
theorem advance_reports (c : Counter) (n : Nat) (s : State) : Reports s (advance c n s) := by
  have base : Reports s { s with events := s.events.advanced c n } :=
    { frame := rfl
      queued := ⟨[], by simp⟩
      room := id
      flags := fun k h => by simpa [EventUnit.flag] using h
      settings := by simp
      alert := fun h => h.trans (alertLevel_congr (e := s.events) rfl rfl rfl rfl).symm
      counters := fun h d => by
        simp only [EventUnit.advanced, Table.get_set]
        split
        · exact Nat.min_le_left _ _
        · exact h d }
  unfold advance
  dsimp only
  split
  · exact base.trans (setEvent_reports _ _ _ _)
  · exact base

/-- Counting bytes as lost is a report. -/
theorem loseBytes_reports (n : Nat) (s : State) : Reports s (loseBytes n s) := by
  refine Reports.trans (t := { s with events := { s.events with remainder := (s.events.remainder + n) % 64 } }) ?_
    (advance_reports _ _ _)
  exact
    { frame := rfl
      queued := ⟨[], by simp⟩
      room := id
      flags := fun _ h => h
      settings := ⟨rfl, rfl, rfl⟩
      alert := fun h => h.trans (alertLevel_congr (e := s.events) rfl rfl rfl rfl).symm
      counters := id }

/-- Dropping a grant is a report. -/
theorem dropGrant_reports (k : EventKind) (c : Code) (i : Index) (n : Nat) (s : State) :
    Reports s (dropGrant k c i n s) :=
  ((setEvent_reports _ _ _ _).trans (advance_reports _ _ _)).trans (loseBytes_reports _ _)

/-- Discarding a malformed record is a report. -/
theorem discardMalformed_reports (n : Nat) (c : Code) (s : State) : Reports s (discardMalformed n c s) :=
  (advance_reports _ _ _).trans (setEvent_reports _ _ _ _)

/-- Discarding a frame is a report. -/
theorem discardFrame_reports (s : State) : Reports s (discardFrame s) :=
  (advance_reports _ _ _).trans (setEvent_reports _ _ _ _)

/-- A stray receipt is a report. -/
theorem strayReceipt_reports (k : EventKind) (e : Epoch) (c : Code) (s : State) :
    Reports s (strayReceipt k e c s) :=
  (setEvent_reports _ _ _ _).trans (advance_reports _ _ _)

/-- A stray feedback is a report. -/
theorem strayFeedback_reports (e : Epoch) (c : Code) (s : State) : Reports s (strayFeedback e c s) :=
  (setEvent_reports _ _ _ _).trans (advance_reports _ _ _)

/-! ## What each counter shows -/

/-- A counter after an advance. -/
@[simp] theorem counter_advance (c d : Counter) (n : Nat) (s : State) :
    (advance c n s).events.counter d =
      if d = c then min Config.counterMax (s.events.counter c + n) else s.events.counter d := by
  rw [← counter_advanced]
  unfold advance
  dsimp only
  split <;> rfl

/-- Setting an event leaves the counters. -/
@[simp] theorem counter_setEvent (k : EventKind) (n : Nat) (c : Code) (s : State) (d : Counter) :
    (setEvent k n c s).events.counter d = s.events.counter d := rfl

/-- The remainder is no matter of an advance. -/
@[simp] theorem remainder_advance (c : Counter) (n : Nat) (s : State) :
    (advance c n s).events.remainder = s.events.remainder := by
  unfold advance
  dsimp only
  split <;> rfl

/-- A flag after an advance: COUNTER_HALF on the passage, the others as before. -/
theorem flag_advance (c : Counter) (n : Nat) (s : State) (k : EventKind) :
    (advance c n s).events.flag k =
      (s.events.flag k ||
        (decide (k = .counterHalf) &&
          decide (s.events.counter c < Config.counterHalf ∧
            Config.counterHalf ≤ min Config.counterMax (s.events.counter c + n)))) := by
  have hc : (s.events.advanced c n).counter c = min Config.counterMax (s.events.counter c + n) := by
    simp [counter_advanced]
  have hf : ∀ e : EventUnit, e.flags = s.events.flags → e.flag k = s.events.flag k := fun e h => by
    simp only [EventUnit.flag, h]
  unfold advance
  dsimp only
  rw [hc]
  split
  · rename_i h
    simp [h, hf]
  · rename_i h
    simp only [h, decide_false, Bool.and_false, Bool.or_false]
    exact hf _ rfl

/-- The remainder after bytes are lost. -/
theorem remainder_loseBytes (n : Nat) (s : State) :
    (loseBytes n s).events.remainder = (s.events.remainder + n) % Config.lostUnit := by
  simp [loseBytes]

/-- A counter after bytes are lost. -/
theorem counter_loseBytes (n : Nat) (s : State) (d : Counter) :
    (loseBytes n s).events.counter d =
      if d = .bytesLost then
        min Config.counterMax (s.events.counter .bytesLost + (s.events.remainder + n) / Config.lostUnit)
      else s.events.counter d := by
  simp only [loseBytes, counter_advance]
  rfl

end Sys2Proof.Machine
end

