-- ==== Sys2Proof/Laws/Operations.lean ====
section
/-!
SUPPORT. What each shared operation answers, once for all that use it: the finish of a pulse, the hand-over of a record,
the Redo List, outstanding and the emptying, the ring, the ends of a run.
-/
namespace Sys2Proof.Machine

/-! ## The finish of a pulse -/

/-- With no pulse work remaining nothing is finished. -/
theorem finishPulse_idle {s : State} (h : s.pulse.pending = false) : finishPulse s = s := by
  simp [finishPulse, h]

/-- After the finish no pulse work remains. -/
theorem finishPulse_done (s : State) : (finishPulse s).pulse.pending = false := by
  unfold finishPulse
  split
  · rfl
  · rename_i h; simpa using h

/-- The finish is taken once. -/
theorem finishPulse_twice (s : State) : finishPulse (finishPulse s) = finishPulse s :=
  finishPulse_idle (finishPulse_done s)

/-! ## The hand-over of a record (R161, R162) -/

/-- Only records that need a reply can be held. -/
theorem isHeld_of_no_reply {r : Record} (h : needsReply r = false) (s : State) : isHeld r s = false := by
  simp [isHeld, h]

/-- The clamps change no kind and make no reply needed. -/
@[simp] theorem needsReply_clamp (r : Record) : needsReply (clampRecord r) = needsReply r := by cases r <;> rfl

/-- A record is held after its clamps exactly as before them. -/
@[simp] theorem isHeld_clamp (r : Record) (s : State) : isHeld (clampRecord r) s = isHeld r s := by simp [isHeld]

/-- A record at the head is handed to its owner and leaves. -/
theorem handOver_head {r : Record} {rest : List Record} {s : State} (owner : State → State)
    (hp : s.pulse.pending = false) (hr : outOfRange r = false) (hf : s.link.fifo = clampRecord r :: rest)
    (hh : isHeld r s = false) : handOver r owner s = owner (setFifo rest s) := by
  simp [handOver, finishPulse_idle hp, hr, hf, hh]

/-- A record at the head that needs a reply waits there. -/
theorem handOver_waits {r : Record} {rest : List Record} {s : State} (owner : State → State)
    (hp : s.pulse.pending = false) (hr : outOfRange r = false) (hf : s.link.fifo = clampRecord r :: rest)
    (hh : isHeld r s = true) : handOver r owner s = s := by
  simp [handOver, finishPulse_idle hp, hr, hf, hh]

/-- A record that finds the FIFO empty arrives and is handed straight through. -/
theorem handOver_empty {r : Record} {s : State} (owner : State → State)
    (hp : s.pulse.pending = false) (hr : outOfRange r = false) (hf : s.link.fifo = [])
    (hh : isHeld r s = false) : handOver r owner s = owner (recordArrived s) := by
  simp [handOver, finishPulse_idle hp, hr, hf, hh]

/-- A record that needs a reply and finds the FIFO empty arrives and takes its place there. -/
theorem handOver_empty_held {r : Record} {s : State} (owner : State → State)
    (hp : s.pulse.pending = false) (hr : outOfRange r = false) (hf : s.link.fifo = [])
    (hh : isHeld r s = true) : handOver r owner s = joinFifo (clampRecord r) (recordArrived s) := by
  simp [handOver, finishPulse_idle hp, hr, hf, hh]

/-- A record behind another head arrives and joins the tail. -/
theorem handOver_behind {r h : Record} {rest : List Record} {s : State} (owner : State → State)
    (hp : s.pulse.pending = false) (hr : outOfRange r = false) (hf : s.link.fifo = h :: rest)
    (hh : h ≠ clampRecord r) : handOver r owner s = joinFifo (clampRecord r) (recordArrived s) := by
  simp [handOver, finishPulse_idle hp, hr, hf, hh]

/-- A record out of range is discarded as malformed. -/
theorem handOver_outOfRange {r : Record} {s : State} (owner : State → State)
    (hp : s.pulse.pending = false) (hr : outOfRange r = true) :
    handOver r owner s = discardMalformed (kindSubject r) .range (recordArrived s) := by
  simp [handOver, finishPulse_idle hp, hr]

/-- READY follows the number of records held. -/
theorem readyLevel_eq (l : List Record) : readyLevel l = decide (l.length < 60) := by
  unfold readyLevel Config.readyReserve Config.fifoDepth
  rw [decide_eq_decide]
  omega

/-! ## The receive line (R165, R171) -/

/-- A whole run of 8 idle bytes restarts the timer and ends a loss. -/
theorem hearIdle_restarts {n : Nat} {s : State} (h : Config.idleRun ≤ s.link.idleRun + n) (hn : 0 < n) :
    (hearIdle n s).link =
      { s.link with lost := false, timer := 0, afterIdle := true, idleRun := Config.idleRun } := by
  simp [hearIdle, hn, Nat.min_eq_left h]

/-- A shorter run is counted and restarts nothing. -/
theorem hearIdle_counts {n : Nat} {s : State} (h : s.link.idleRun + n < Config.idleRun) (hn : 0 < n) :
    (hearIdle n s).link = { s.link with afterIdle := true, idleRun := s.link.idleRun + n } := by
  have : min Config.idleRun (s.link.idleRun + n) = s.link.idleRun + n := Nat.min_eq_right (le_of_lt h)
  simp [hearIdle, hn, this, Nat.ne_of_lt h]

/-- An idle byte on the line. -/
theorem takeLine_idle (n : Nat) (rest : List Byte) (s : State) :
    takeLine (n + 1) (idleByte :: rest) s = takeLine n rest (hearIdle 1 s) := by simp [takeLine]

/-- A start byte after an idle byte or a check word: the record is received, and the line goes on after it. -/
theorem takeLine_record {s : State} (n : Nat) (rest : List Byte) (h : s.link.afterIdle = true) :
    takeLine (n + 1) (startByte :: rest) s =
      takeLine n (afterRecord rest) (takeReception (receive rest) (lineStands (recordEnds rest) s)) := by
  have : startByte ≠ idleByte := by decide
  simp [takeLine, this, h]

/-- Any other byte between records is discarded. -/
theorem takeLine_discards {b : Byte} {s : State} (n : Nat) (rest : List Byte) (hi : b ≠ idleByte)
    (hs : ¬(b = startByte ∧ s.link.afterIdle = true)) :
    takeLine (n + 1) (b :: rest) s = takeLine n rest (lineStands false s) := by
  simp [takeLine, hi, hs]

/-! ## Frames on the line (R141, R145) -/

/-- A part that does not see the line hears nothing. -/
theorem whenHearing_deaf {s : State} (hear : State → State) (h : seesLine s = false) : whenHearing hear s = s := by
  simp [whenHearing, h]

/-- The remainder of a frame in which the own transmitter stopped is not taken. -/
theorem whenHearing_remainder {s : State} (hear : State → State) (h : seesLine s = true)
    (hm : s.bus.midFrame = true) : whenHearing hear s = lineSeenIdle s := by
  simp [whenHearing, h, hm]

/-- Every other frame is heard. -/
theorem whenHearing_hears {s : State} (hear : State → State) (h : seesLine s = true)
    (hm : s.bus.midFrame = false) : whenHearing hear s = hear (lineSeenIdle s) := by
  simp [whenHearing, h, hm]

/-- With no pulse work remaining no passage comes before a frame. -/
theorem passDue_idle {s : State} (j : Station) (h : s.pulse.pending = false) : passDue j s = s := by
  simp [passDue, h]

/-! ## The Redo List -/

/-- An insertion adds exactly the entry. -/
theorem insertRedo_perm (e : RedoEntry) (l : List RedoEntry) : (insertRedo e l).Perm (e :: l) := by
  induction l with
  | nil => exact List.Perm.refl _
  | cons x xs ih =>
    unfold insertRedo
    split
    · exact List.Perm.refl _
    · exact (List.Perm.cons x ih).trans (List.Perm.swap e x xs)

/-- An insertion lengthens the list by one. -/
@[simp] theorem insertRedo_length (e : RedoEntry) (l : List RedoEntry) :
    (insertRedo e l).length = l.length + 1 := by
  simpa using (insertRedo_perm e l).length_eq

/-- An insertion keeps the entries in their order. -/
theorem insertRedo_sublist (e : RedoEntry) (l : List RedoEntry) : l.Sublist (insertRedo e l) := by
  induction l with
  | nil => exact List.nil_sublist _
  | cons x xs ih =>
    unfold insertRedo
    split
    · exact List.sublist_cons_self _ _
    · exact ih.cons_cons x

/-- An insertion writes the list and nothing else of the tracking state. -/
@[simp] theorem addRedo_tracking (e : RedoEntry) (s : State) :
    (addRedo e s).tracking = { s.tracking with redo := insertRedo e s.tracking.redo } := by
  unfold addRedo
  dsimp only
  split <;> simp

/-- The counters stay at an insertion. -/
@[simp] theorem addRedo_counters (e : RedoEntry) (s : State) :
    (addRedo e s).events.counters = s.events.counters := by
  unfold addRedo
  dsimp only
  split <;> simp

/-- An insertion after which 4 entries are free sets REDO_NEAR_FULL and no insertion sets another flag. -/
theorem addRedo_flag (e : RedoEntry) (s : State) (k : EventKind) :
    (addRedo e s).events.flag k =
      (s.events.flag k || (decide (k = .redoNearFull) && decide (48 - (s.tracking.redo.length + 1) = 4))) := by
  unfold addRedo
  dsimp only
  split <;> rename_i h <;> simp [Config.redoDepth, Config.redoNearFull] at h <;> simp [h]

/-- A grant the list does not take leaves the tracking state. -/
theorem dropGrant_tracking (k : EventKind) (c : Code) (i : Index) (n : Nat) (s : State) :
    (dropGrant k c i n s).tracking = s.tracking := by simp

/-- What a failure leaves of the Redo List: as it was, or with one entry more under the grant's tag, and then the
list was not full. -/
theorem failGrant_redo (g : OgtEntry) (s : State) :
    (failGrant g s).tracking.redo = s.tracking.redo ∨
      (s.tracking.redo.length < Config.redoDepth ∧
        ∃ e, e.origin = g.tag ∧ (failGrant g s).tracking.redo = insertRedo e s.tracking.redo) := by
  unfold failGrant
  split
  · simp
  · split
    · simp
    · rename_i hfull
      split
      · simp
      · right
        refine ⟨?_, ?_⟩
        · simpa [redoFull] using hfull
        · simp only [addRedo_tracking]
          exact ⟨_, rfl, rfl⟩

/-- What a return leaves of the Redo List: as it was, or with one entry more, and then the list was not full. -/
theorem returnGrant_redo (n : Epoch) (g : OgtEntry) (o : RedoOrigin) (s : State) :
    (returnGrant n g o s).tracking.redo = s.tracking.redo ∨
      (s.tracking.redo.length < Config.redoDepth ∧
        ∃ e, e.origin = o.tag ∧ (returnGrant n g o s).tracking.redo = insertRedo e s.tracking.redo) := by
  unfold returnGrant
  split
  · simp
  · split
    · simp
    · split
      · simp
      · rename_i hfull
        right
        refine ⟨?_, ?_⟩
        · simpa [redoFull] using hfull
        · simp only [addRedo_tracking]
          exact ⟨_, rfl, rfl⟩

/-! ## Contexts -/

/-- A context after a release that is done. -/
@[simp] theorem ctx_releaseDone (i j : Index) (s : State) :
    ctx (releaseDone i s) j = if j = i then (ctx s i).freed else ctx s j := by
  simp [releaseDone, enterFree, ctx_setCtx]

/-- A context after one of its grants is gone. -/
theorem ctx_dropOutstanding (i j : Index) (s : State) :
    ctx (dropOutstanding i s) j =
      if j = i then
        if (ctx s i).state = .closing ∧ (ctx s i).outstanding - 1 = 0 then (ctx s i).freed
        else { ctx s i with outstanding := (ctx s i).outstanding - 1 }
      else ctx s j := by
  unfold dropOutstanding
  dsimp only
  split
  · rename_i h
    simp at h
    by_cases hj : j = i <;> simp [hj, h, Context.freed, ctx_setCtx]
  · rename_i h
    simp at h
    by_cases hj : j = i
    · subst hj; simp; intro a b; exact absurd b (h a)
    · simp [hj, ctx_setCtx]

/-- A fold of releases frees the contexts it names. -/
theorem ctx_foldl_releaseDone (l : List Index) (s : State) (j : Index) :
    ctx (l.foldl (fun t i => releaseDone i t) s) j = if j ∈ l then (ctx s j).freed else ctx s j := by
  induction l generalizing s with
  | nil => simp
  | cons x xs ih =>
    rw [List.foldl_cons, ih]
    by_cases h1 : j = x <;> by_cases h2 : j ∈ xs <;> simp [h1, h2, Context.freed]

/-- A context after the OGT is emptied (R24, R25). -/
@[simp] theorem ctx_emptyOutstanding (s : State) (j : Index) :
    ctx (emptyOutstanding s) j =
      if (ctx s j).state = .closing then (ctx s j).freed else { ctx s j with outstanding := 0 } := by
  unfold emptyOutstanding
  dsimp only
  rw [ctx_foldl_releaseDone]
  simp only [Table.mem_positions, ctx, Table.get_map, beq_iff_eq]
  split <;> rename_i h <;> simp only [h] <;> rfl

/-! ## The Batch Ring -/

/-- A ring record after a write. -/
@[simp] theorem setBatch_tracking (e : Epoch) (st : BatchStatus) (s : State) :
    (setBatch e st s).tracking =
      { s.tracking with ring := s.tracking.ring.set (ringIndex e) { target := some e, status := st } } := rfl

/-- What the emptying leaves of the tracking state: the serial alone. -/
@[simp] theorem emptyTracking_tracking (s : State) :
    (emptyTracking s).tracking =
      { ring := Table.fill 16 BatchRecord.empty, ogt := [], redo := [], serial := s.tracking.serial } := by
  simp [emptyTracking]

/-- A context after the emptying. -/
@[simp] theorem ctx_emptyTracking (s : State) (j : Index) :
    ctx (emptyTracking s) j =
      if (ctx s j).state = .closing then (ctx s j).freed else { ctx s j with outstanding := 0 } := by
  have h : ∀ (n : Nat) (t : State), ctx (loseBytes n t) j = ctx t j := fun n t => ctx_congr (by simp) j
  simp only [emptyTracking, ctx_emptyOutstanding, h]
  rfl

/-! ## Voids (R90, R103) -/

/-- What one void grant leaves of the OGT and the Batch Ring: its entry gone, every record as it was. -/
theorem voidEntry_tracking (n : Epoch) (s : State) (g : OgtEntry) :
    (voidEntry n s g).tracking.ogt = s.tracking.ogt.filter (fun h => h.tag != g.tag) ∧
    (voidEntry n s g).tracking.ring = s.tracking.ring := by
  have back : ∀ (o : RedoOrigin) (t : State),
      (returnGrant n g o t).tracking.ogt = t.tracking.ogt ∧ (returnGrant n g o t).tracking.ring = t.tracking.ring := by
    intro o t
    unfold returnGrant
    repeat' split
    all_goals simp
  unfold voidEntry
  cases h : g.origin <;> simp [removeGrant, setOgt, back]

/-- Voids of a list of grants leave the entries whose tags are not theirs. -/
theorem foldl_voidEntry_tracking (n : Epoch) (l : List OgtEntry) (s : State) :
    (l.foldl (voidEntry n) s).tracking.ogt = s.tracking.ogt.filter (fun h => l.all fun g => h.tag != g.tag) ∧
    (l.foldl (voidEntry n) s).tracking.ring = s.tracking.ring := by
  induction l generalizing s with
  | nil => simp
  | cons g l ih =>
    rw [List.foldl_cons, (ih _).1, (ih _).2, (voidEntry_tracking n s g).1, (voidEntry_tracking n s g).2]
    simp [List.filter_filter, Bool.and_comm]

/-- A void batch: its entries leave and no other, and its record alone is written. -/
theorem voidBatch_tracking (n e : Epoch) (s : State) :
    (voidBatch n e s).tracking.ogt = s.tracking.ogt.filter (fun g => g.tag.epoch != e) ∧
    (voidBatch n e s).tracking.ring = s.tracking.ring.set (ringIndex e) { target := some e, status := .void } := by
  have out : ∀ g ∈ s.tracking.ogt,
      ((s.tracking.ogt.filter fun g => g.tag.epoch == e).all fun h => g.tag != h.tag) = (g.tag.epoch != e) := by
    intro g hg
    rw [Bool.eq_iff_iff]
    simp only [List.all_eq_true, List.mem_filter, beq_iff_eq, bne_iff_ne, and_imp]
    exact ⟨fun h he => h g hg he rfl, fun h x _ hx ht => h (ht ▸ hx)⟩
  unfold voidBatch
  simp only [advance_keeps, setEvent_keeps, setBatch_tracking, (foldl_voidEntry_tracking _ _ _).1,
    (foldl_voidEntry_tracking _ _ _).2, and_true]
  exact List.filter_congr out

/-! ## The ends of a run -/

/-- What an abort makes of the tracking state: MISSED for the target, in its place of the ring (R63, R86). -/
theorem abortRun_tracking (b : Bool) (s : State) :
    (abortRun b s).tracking =
      match s.engine.run with
      | some r =>
        { s.tracking with
          ring := s.tracking.ring.set (ringIndex r.target) { target := some r.target, status := .missed } }
      | none => s.tracking := by
  cases h : s.engine.run
  · simp [abortRun, h]
  · cases b <;> simp [abortRun, h, abortTarget, discardRun, setPrev]

/-- What an abort reports: PLAN_MISSED and the plans-missed counter up by 1 for a run in flight, nothing without one
(R63). -/
theorem abortRun_missed (b : Bool) (s : State) :
    ((abortRun b s).events.flag .planMissed = (s.events.flag .planMissed || s.engine.run.isSome)) ∧
    (abortRun b s).events.counter .plansMissed =
      (if s.engine.run.isSome then min 65535 (s.events.counter .plansMissed + 1)
      else s.events.counter .plansMissed) := by
  have framed : ∀ (f : BusFrame) (t : State),
      (frameDue f t).events.counter .plansMissed = t.events.counter .plansMissed := by
    intro f t
    unfold frameDue
    repeat' split
    all_goals simp
  cases h : s.engine.run
  · simp [abortRun, h]
  · constructor
    · simp [abortRun, h, abortTarget, flag_advance]
    · simp only [abortRun, h, abortTarget, counter_advance, counter_setEvent]
      cases b
      · rfl
      · exact congrArg (fun x => min 65535 (x + 1)) (framed _ _)


/-- No run remains after an abort. -/
@[simp] theorem abortRun_engine (b : Bool) (s : State) :
    (abortRun b s).engine = { s.engine with run := none } := by
  unfold abortRun
  split
  · simp [abortTarget]
    split <;> simp
  · rename_i h; simp [← h]

/-- What an abort makes of the power figures. -/
@[simp] theorem abortRun_power (b : Bool) (s : State) :
    (abortRun b s).power = if s.engine.run.isSome then { s.power with pPrev := 0 } else s.power := by
  unfold abortRun
  split <;> rename_i h <;> simp [h, abortTarget]
  split <;> simp

/-- The engine, the power figures, the edge state and the operating state after entry to HOLDING. -/
theorem enterHolding_writes (s : State) :
    (enterHolding s).engine = { s.engine with run := none, carrySource := none, carryTiles := [] } ∧
    (enterHolding s).power = { s.power with pPrev := 0 } ∧ (enterHolding s).edge = Edge.reset ∧
    (enterHolding s).align = { s.align with opState := .holding } := by
  refine ⟨?_, ?_, ?_, ?_⟩
  · simp [enterHolding]
  · simp [enterHolding]
    split <;> simp
  · simp [enterHolding]
  · simp [enterHolding]

end Sys2Proof.Machine
end

