-- ==== Sys2Proof/Tests/Slice0.lean ====
section
/-!
SUPPORT. Small tests, each about one step or one figure: the well-formedness checks, the manual's worked examples and
tables, and the formats.  Expected results come from the manual, by section or rule, unless a comment says otherwise.
-/
namespace Sys2Proof.Tests

set_option Elab.async false

open Sys2Proof Sys2Proof.Machine

/-! ## States the tests start from -/

/-- The state a command leaves, or the state it was given when it does not run. -/
def after (c : Instr) (s : State) : State :=
  match exec c s with
  | .next t => t
  | .fault _ => s
  | .refused _ => s

/-- Station 2 in an operating state at epoch 100, with the values in force that the argument gives. -/
def at100 (op : OpState) (p : Params) : State :=
  { State.resetAt 2 with
    config := p
    align :=
      { Alignment.reset 2 with
        opState := op, mode := some { bands := .s24, edge := true }, epoch := some 100, watch := .regular,
        timing := true, period := some .ms4, listened := 20 } }

/-- The state with one record in the FIFO. -/
def withRecord (r : Record) (s : State) : State := setFifo [r] s

/-- An ACTIVE context with the backlogs, range figures and outstanding that the arguments give. -/
def activeCtx (dl ul rtd margin strikes outstanding : Nat) : Context :=
  { Context.reset with
    state := .active, cls := 2, dlBacklog := dl, ulBacklog := ul, rtd := rtd, lateMargin := margin,
    strikes := strikes, outstanding := outstanding }

/-- OPERATING with one context. -/
def operatingWith (i : Index) (c : Context) : State := setCtx i c (at100 .operating Params.reset)

/-! ## Well-formedness: one ill-formed term for each check -/

theorem test_wf_attach : (Instr.attach 3 5 3 15 1000).wellFormed = true := by decide +kernel
theorem test_wf_attach_ident : (Instr.attach 3 16777216 3 15 1000).wellFormed = false := by decide +kernel
theorem test_wf_attach_class : (Instr.attach 3 5 4 15 1000).wellFormed = false := by decide +kernel
theorem test_wf_attach_weight_0 : (Instr.attach 3 5 3 0 1000).wellFormed = false := by decide +kernel
theorem test_wf_attach_weight_16 : (Instr.attach 3 5 3 16 1000).wellFormed = false := by decide +kernel
theorem test_wf_attach_rtd : (Instr.attach 3 5 3 15 1001).wellFormed = false := by decide +kernel
theorem test_wf_range : (Instr.range 3 1001).wellFormed = false := by decide +kernel
theorem test_wf_channel_dl : (Instr.channel 3 16 0).wellFormed = false := by decide +kernel
theorem test_wf_channel_ul : (Instr.channel 3 0 16).wellFormed = false := by decide +kernel
theorem test_wf_dlData : (Instr.dlData 3 16777216).wellFormed = false := by decide +kernel
theorem test_wf_ulBuf : (Instr.ulBuf 3 16777216).wellFormed = false := by decide +kernel
theorem test_wf_late : (Instr.late 3 256).wellFormed = false := by decide +kernel
theorem test_wf_feedback : (Instr.feedback 5 32 true).wellFormed = false := by decide +kernel
theorem test_wf_floor : (Instr.floor 4).wellFormed = false := by decide +kernel
theorem test_wf_clear : (Instr.clear 0x20000000).wellFormed = false := by decide +kernel
theorem test_wf_record : (Instr.recordReceived [0x55]).wellFormed = false := by decide +kernel
theorem test_wf_idle : (Instr.idlePatternReceived 7).wellFormed = false := by decide +kernel
theorem test_wf_pulse : (Instr.epochPulse 2000000 [.counts, .counts]).wellFormed = false := by decide +kernel
/-- Frames may stand anywhere in a pulse's order, the same one twice (R141). -/
theorem test_wf_pulse_frames :
    let f : AbilityFrame :=
      { station := 6, opState := 1, epoch := 65535, c12 := true, c16 := false, c24 := true, edge := false }
    (Instr.epochPulse 2000000 [.ability f false, .counts, .ability f false]).wellFormed = true ∧
      (Instr.epochPulse 2000000 [.counts, .ability f false, .counts]).wellFormed = false := by decide +kernel

theorem test_wf_mark : (Instr.markPulse 2000000 [.ageing, .ageing]).wellFormed = false := by decide +kernel
theorem test_wf_deferral : (Instr.deferralInterrupted 32).wellFormed = false := by decide +kernel
theorem test_wf_framingLost : (Instr.framingLost (List.replicate 65540 0)).wellFormed = false := by
  show decide ((List.replicate 65540 (0 : Byte)).length < 65540) = false
  rw [List.length_replicate]
  decide +kernel
theorem test_wf_busCrc :
    (Instr.busCrc (frameBytes 7 (.ability 2 .listening ⟨⟨true, true, true⟩, false⟩)) false).wellFormed = false := by
  decide +kernel

/-! ## The table gives no bits -/

theorem test_decode_none : decodeTableWord 16 0x1234 = none := rfl

/-! ## Formats (R171–R179) -/

/-- The check word's usual check value over the nine digits, from outside the manual (PRESUMED): 29B1h. -/
theorem test_check_word : checkWord [0x31, 0x32, 0x33, 0x34, 0x35, 0x36, 0x37, 0x38, 0x39] = 0x29B1#16 := by
  decide +kernel

/-- A FLOOR of 2 on the line: start byte, kind 0Ch, length 1, body, check word (R171–R173). -/
theorem test_floor_bytes : (recordBytes (.floor 2)).take 5 = [0xC3, 0x0C, 0x00, 0x01, 0x02] := by decide +kernel

/-- A FEEDBACK FAIL for epoch 513 and plan index 3, byte by byte (R173). -/
theorem test_feedback_bytes : bodyBytes (.feedback 513 3 true) = [0x02, 0x01, 0x03, 0x01] := by decide +kernel

/-- ATTACH of index 5, ident 10203h, class 2, weight 7, delay 300 µs, byte by byte (R173). -/
theorem test_attach_bytes :
    bodyBytes (.attach 5 0x10203 2 7 300) = [0x05, 0x01, 0x02, 0x03, 0x02, 0x07, 0x01, 0x2C] := by decide +kernel

/-- What is sent is received. -/
theorem test_attach_received :
    receive ((recordBytes (.attach 5 0x10203 2 7 300)).drop 1) = .wellFormed (.attach 5 0x10203 2 7 300) := by
  decide +kernel

/-- A class of 6 is taken as its low two bits, a weight of 0 as 1, a delay above 1,000 as 1,000 (R160, R180). -/
theorem test_attach_clamped :
    receive ((recordBytes (.attach 5 0x10203 6 0 1200)).drop 1) = .wellFormed (.attach 5 0x10203 2 1 1000) := by
  decide +kernel

/-- A FLOOR with the length of a RELEASE passes; with a body of two bytes it fails with LENGTH (R159). -/
theorem test_length_error :
    receive ((envelope 0x0C [0x02, 0x00]).drop 1) = .malformed (some 0x0C) .length true := by decide +kernel

/-- A kind that is none of the fifteen fails with KIND (R159). -/
theorem test_kind_error : receive ((envelope 0x10 []).drop 1) = .malformed (some 0x10) .kind true := by
  decide +kernel

/-- The sizes of the bodies: CONFIG 47, NOTICE 6, CONTEXT 37, STATUS 89 (R174, R175, R177, R178). -/
theorem test_body_sizes :
    (configBytes (inForce Params.reset EventUnit.reset)).length = 47 ∧
    (noticeBytes { event := .released, subject := 3, code := .done, epoch := none }).length = 6 ∧
    (contextBytes 3 Context.reset 0).length = 37 ∧ (statusBytes (statusOf State.reset)).length = 89 := by
  decide +kernel

/-- ABILITY of station 5 in LISTENING, unaligned, counts 12 and 24 with edge capability (R179). -/
theorem test_ability_bytes :
    (frameBytes 65535 (.ability 5 .listening ⟨⟨true, false, true⟩, true⟩)).take 5 =
      [0x42, 0xA1, 0xFF, 0xFF, 0x85] := by decide +kernel

/-- An ANNOUNCE of 15 bytes is read back with its claim and set (R179). -/
theorem test_announce_read :
    (match readFrame (frameBytes 640 (.announce 3 .operating 642 104 0x1C 24 (some ⟨.s16, true⟩))) false with
      | some (.announce f) => (f.station.val, f.claim.toNat, f.reserved.toNat, f.demand.toNat, f.modeCode.toNat)
      | some (.ability _) => (0, 0, 0, 0, 0)
      | none => (0, 0, 0, 0, 0)) = (3, 104, 0x1C, 24, 1) := by decide +kernel

/-! ## Subscriber records (chapters 1 and 2) -/

theorem test_attach_accepted :
    let t := after (.attach 7 0x010203 3 15 1000) (at100 .listening Params.reset)
    (ctx t 7).state = .admitting ∧ (ctx t 7).attachNo = 1 ∧ (ctx t 7).weight = 15 := by decide +kernel

theorem test_attach_full :
    ((after (.attach 7 1 1 1 0) (operatingWith 9 (activeCtx 0 0 0 0 0 0))).events.flag .attachRefused) = true := by
  decide +kernel

theorem test_release_closes :
    (ctx (after (.release 9) (operatingWith 9 (activeCtx 5 6 0 0 0 1))) 9).state = .closing := by decide +kernel

/-- The table of 2.2: 1,047,900 and 1,000 saturate at 1,048,575 with DLDATA_SATURATED. -/
theorem test_dlData_saturates :
    let t := after (.dlData 44 1000) (operatingWith 44 (activeCtx 1047900 600 0 0 0 0))
    (ctx t 44).dlBacklog = 1048575 ∧ t.events.flag .dlDataSaturated = true := by decide +kernel

/-- The table of 2.2: a refund of 2,000 to 1,046,575 reaches the limit exactly, and sets no event. -/
theorem test_refund_reaches_limit :
    let t := refund 44 .dl 2000 (operatingWith 44 (activeCtx 1046575 900 0 0 0 0))
    (ctx t 44).dlBacklog = 1048575 ∧ t.events.flag .dlDataSaturated = false := by decide +kernel

/-- The table of 2.2: ULBUF replaces the figure held. -/
theorem test_ulBuf_replaces :
    (ctx (after (.ulBuf 44 850) (operatingWith 44 (activeCtx 1048575 1300 0 0 0 0))) 44).ulBacklog = 850 := by
  decide +kernel

theorem test_channel_regrades :
    let t := after (.channel 44 15 0) (operatingWith 44 { activeCtx 0 0 0 0 0 0 with idleCount := 9 })
    (ctx t 44).dlGrade = 15 ∧ (ctx t 44).idleCount = 0 := by decide +kernel

/-- The four subscribers of 2.6 at 500 µs: k and k7. -/
theorem test_shadow_counts_500 :
    ([(600, 0), (520, 0), (300, 0), (1000, 255)].map fun x =>
      (shadowCount 333 500 x.1 x.2, tailShadowCount 333 200 500 x.1 x.2)) =
      [(1, 1), (1, 0), (0, 0), (2, 2)] := by decide +kernel

/-- The four subscribers of 2.6 at 250 µs: k and k7. -/
theorem test_shadow_counts_250 :
    ([(600, 0), (520, 0), (300, 0), (1000, 255)].map fun x =>
      (shadowCount 333 250 x.1 x.2, tailShadowCount 333 200 250 x.1 x.2)) =
      [(2, 1), (1, 0), (0, 0), (4, 3)] := by decide +kernel

/-- The settings of 2.7, policy BAR. -/
def strikeParams : Params := { Params.reset with advanceLimit := 333, tailGuard := 200, maxShadow := 1 }

/-- The third LATE of 2.7, of 300 µs clamped to 255, bars the uplink for lateness. -/
theorem test_late_third_strike :
    let t := after (.late 61 300) (setCtx 61 (activeCtx 0 0 400 90 2 0) (at100 .operating strikeParams))
    (ctx t 61).lateMargin = 255 ∧ (ctx t 61).strikes = 3 ∧ (ctx t 61).ulBarred = true ∧
      t.events.flag .ulBarred = true := by decide +kernel

/-- RANGE(61, 450) of 2.7 lifts the bar without an event; RANGE(61, 900) bars by range. -/
theorem test_range_lifts_and_bars :
    let barred := { activeCtx 0 0 400 255 3 0 with ulBarred := true }
    let t := after (.range 61 450) (setCtx 61 barred (at100 .operating strikeParams))
    let u := after (.range 61 900) t
    (ctx t 61).ulBarred = false ∧ t.events.flag .ulBarred = false ∧ (ctx u 61).ulBarred = true ∧
      u.events.flag .ulBarred = true := by decide +kernel

theorem test_query_replies :
    (after (.query 44) (operatingWith 44 (activeCtx 5 6 0 0 0 0))).link.queue =
      [.context 44 (activeCtx 5 6 0 0 0 0) 0] := by decide +kernel

/-! ## Ranking and placement (3.7, 4.8, 4.9) -/

/-- The metrics of 3.7. -/
theorem test_metrics :
    (metric 1 52 3200, metric 4 34 800, metric 2 4 0, metric 1 20 400, metric 2 16 100) =
      (522, 5157, 4096, 1412, 6393) := by decide +kernel

/-- The averages of 3.7 after completion. -/
theorem test_averages :
    (averageAfter 800 1000, averageAfter 3200 2496, averageAfter 400 320, averageAfter 100 0) =
      (1750, 5496, 695, 94) := by decide +kernel

/-- A context of a snapshot, ACTIVE. -/
def snapOf (i : Index) (cls weight dlGrade dl avgDl : Nat) (servedDl : Option Epoch) (ulGrade ul avgUl rtd : Nat)
    (barred : Bool) : SnapContext :=
  { index := i, state := .active, attachNo := 0, ident := 0, cls := cls, weight := weight, dlGrade := dlGrade,
    ulGrade := ulGrade, dlBacklog := dl, ulBacklog := ul, avgDl := avgDl, avgUl := avgUl, lastServedDl := servedDl,
    lastServedUl := none, rtd := rtd, lateMargin := 0, ulBarred := barred }

/-- The snapshot of 3.7 and 4.8 with the requested floor given. -/
def snapshot410 (floor : Nat) : Snapshot :=
  { contexts :=
      [snapOf 3 2 4 9 1000 800 (some 405) 7 0 160 300 false, snapOf 7 2 2 2 60 0 none 2 40 0 300 true,
       snapOf 9 3 1 12 5000 3200 (some 409) 6 900 400 300 false, snapOf 12 1 2 5 300 100 (some 370) 4 200 48 300 false,
       snapOf 40 0 8 14 2000 0 none 10 500 0 300 false]
    redo := [], allowance := 110, powerFloor := 0, requestedFloor := floor, carry := [], ownSet := 0x3,
    blockedSet := 0xC, epoch := 408, bands := .s12, slotTime := 500, edgeGrade := 3, quietGrade := 9,
    ageLimit := 32, advanceLimit := 333, tailGuard := 200, maxShadow := 2 }

/-- The orders of 3.7. -/
theorem test_orders :
    ((rankedCandidates (snapshot410 1) 410 .dl).map fun c => (c.context.val, c.effectiveClass, c.metric)) =
      [(9, 3, 522), (3, 2, 5157), (7, 2, 4096)] ∧
    ((rankedCandidates (snapshot410 1) 410 .ul).map fun c => (c.context.val, c.metric)) = [(9, 1412)] := by
  decide +kernel

/-- The variant of 3.7 with requested floor 0: context 12 is aged in the downlink alone. -/
theorem test_orders_floor_0 :
    ((rankedCandidates (snapshot410 0) 410 .dl).map fun c => c.context.val) = [12, 9, 3, 7] ∧
    ((rankedCandidates (snapshot410 0) 410 .ul).map fun c => c.context.val) = [9, 12] := by decide +kernel

/-- The run of 4.8. -/
def run410 : Run :=
  { target := 410, snapshot := snapshot410 1, dlOrder := orderOf (snapshot410 1) 410 .dl,
    ulOrder := orderOf (snapshot410 1) 410 .ul, dlGrid := freeGrid 12, ulGrid := carriedGrid 12 [] }

/-- The downlink placement of 4.8: sub-bands 6–11, 2–5 and 0, with 6 pp left. -/
theorem test_downlink_placement :
    ((placeDownlink run410).placed.map fun p => (p.context.val, p.firstBand, p.width, p.capacity, p.bytes)) =
      [(9, 6, 6, 2496, 2496), (3, 2, 4, 1088, 1000), (7, 0, 1, 32, 32)] ∧
    (placeDownlink run410).remaining = 6 := by decide +kernel

/-- The completion of 4.8: P_prev 104, edge demand 8 over 1 sub-band, the charges and the PLAN's counts. -/
theorem test_completion :
    let ctxs := [3, 7, 9, 12, 40].foldl
      (fun (s : State) (i : Index) =>
        setCtx i { activeCtx (if i = 9 then 5000 else 1000) 900 300 0 0 0 with attachNo := 0 } s)
      (at100 .operating Params.reset)
    let t := after .runCompletion { ctxs with engine := { ctxs.engine with run := some run410 } }
    t.power.pPrev = 104 ∧ (t.edge.demand, t.edge.subBands) = (8, 1) ∧ (ctx t 9).dlBacklog = 2504 ∧
      (ctx t 9).ulBacklog = 580 ∧ t.tracking.ogt.length = 4 ∧ t.engine.carrySource = some 410 := by
  decide +kernel

/-- The run of 4.9: the carry set from 512, the five uplink candidates in their order. -/
def run513 : Run :=
  let sn : Snapshot := { snapshot410 0 with epoch := 511, carry := [(0, 0), (1, 0)] }
  let cand := fun (i : Index) (grade backlog rtd : Nat) =>
    OrderEntry.fresh
      { context := i, cls := 2, effectiveClass := 2, metric := 0, grade := grade, backlog := backlog, rtd := rtd,
        lateMargin := 0 }
  { target := 513, snapshot := sn, dlOrder := [],
    ulOrder := [cand 20 9 400 600, cand 21 4 150 520, cand 22 12 2000 200, cand 23 2 40 1000, cand 24 5 500 900],
    dlGrid := freeGrid 12, ulGrid := carriedGrid 12 sn.carry }

/-- The uplink placement of 4.9: first sub-band, first slot, height and bytes. -/
theorem test_uplink_placement :
    ((placeUplink run513).placed.map fun p => (p.context.val, p.firstBand, p.firstSlot, p.height, p.bytes)) =
      [(20, 0, 5, 3, 400), (21, 4, 1, 7, 150), (22, 6, 0, 8, 1664), (23, 10, 0, 8, 32), (24, 2, 0, 3, 96)] := by
  decide +kernel

/-- The carry set of 4.9: five tiles in slot 0. -/
theorem test_spill :
    ((placeUplink run513).placed.flatMap fun p => p.spill) = [(0, 0), (1, 0), (2, 0), (3, 0), (10, 0)] := by
  decide +kernel

/-! ## Power and edge (6.5, 7.7) -/

/-- The settings of 6.5. -/
def powerParams : Params :=
  { Params.reset with budget := 600, floorShare := 80, rampStep := 40, t1 := 120, t2 := 60 }

/-- The two pulses of 6.5. -/
theorem test_allowances :
    (allowanceOf powerParams 120 550, powerFloorOf powerParams 80, allowanceOf powerParams 80 400,
      powerFloorOf powerParams 120) = (80, 1, 120, 0) := by decide +kernel

/-- A peer as 7.7 has it heard: adjacent, PRESENT, with a set and a demand. -/
def heldPeer (set : SubBands) (demand : Nat) : Peer :=
  { Peer.reset with state := .present, silence := 0, reserved := set, demand := demand, adjacent := true }

/-- Station 2 of 7.7 at the pulse starting an epoch, with an update event due. -/
def edgeAt (epoch : Epoch) (own peerSet : SubBands) (held : List HoldDown) : State :=
  let s := at100 .operating { Params.reset with tMin := 1, tMax := 3, holdDown := 16, updateInterval := 8 }
  let t := setPeer 3 (heldPeer peerSet 24) s
  { t with
    align := { t.align with epoch := some epoch, mode := some { bands := .s16, edge := true } }
    edge := { Edge.reset with ownSet := own, demand := 16, subBands := 2, holdDown := held }
    pulse := { PulseWork.none with pending := true, update := true } }

/-- Station 2 at the pulse starting 640: 2 is yielded until 656 and 4 is added. -/
theorem test_update_640 :
    let t := after .updateEvent (edgeAt 640 0b111 0b1100 [])
    t.edge.ownSet = 0b10011#24 ∧ t.edge.holdDown = [{ band := 2, expiry := 656 }] := by decide +kernel

/-- Station 2 at the pulse starting 648: 4 is yielded until 664 and 5 is added. -/
theorem test_update_648 :
    let t := after .updateEvent (edgeAt 648 0b10011 0b11100 [{ band := 2, expiry := 656 }])
    t.edge.ownSet = 0b100011#24 ∧
      t.edge.holdDown = [{ band := 2, expiry := 656 }, { band := 4, expiry := 664 }] := by decide +kernel

theorem test_hold_down_expires :
    let s := edgeAt 656 0b10011 0b11100 [{ band := 2, expiry := 656 }, { band := 4, expiry := 664 }]
    (after .holdDownExpiry { s with pulse := { s.pulse with holdDown := true } }).edge.holdDown =
      [{ band := 4, expiry := 664 }] := by decide +kernel

/-! ## Tracking (chapter 5) -/

/-- An entry of the OGT: downlink, 100 bytes, of context 44. -/
def grantAt (epoch : Epoch) (index : Nat) (committed : Bool) (deadline : Epoch) : OgtEntry :=
  { tag := { epoch := epoch, index := index }, context := 44, direction := .dl, width := 1, height := 8, grade := 3,
    bytes := 100, committed := committed, feedbackDeadline := deadline, redoNumber := 0, origin := none }

/-- OPERATING with batch 100 in a status and one grant of it, redo allowed once. -/
def trackingAt (st : BatchStatus) (committed : Bool) : State :=
  let s := setCtx 44 (activeCtx 0 0 0 0 0 1) (at100 .operating { Params.reset with redoMax := 1, redoDistance := 4 })
  setOgt [grantAt 100 0 committed 102] (setBatch 100 st s)

theorem test_receipt_commits :
    let t := after (.receipt 100) (trackingAt .sent false)
    (batchOf t 100).status = .committed ∧ t.tracking.ogt.map OgtEntry.committed = [true] := by decide +kernel

theorem test_receipt_late :
    let t := after (.receipt 100) (trackingAt .void false)
    t.events.flag .lateReceipt = true ∧ t.events.counter .strayReceipts = 1 := by decide +kernel

theorem test_feedback_ok :
    let t := after (.feedback 100 0 false) (trackingAt .committed true)
    t.tracking.ogt = [] ∧ (ctx t 44).outstanding = 0 := by decide +kernel

/-- A failed grant becomes one redo entry of redo number 1, deadline D epochs on (R95). -/
theorem test_feedback_fail :
    (after (.feedback 100 0 true) (trackingAt .committed true)).tracking.redo.map
      (fun e => (e.redoNumber, e.deadline.val, e.bytes)) = [(1, 104, 100)] := by decide +kernel

theorem test_batch_void :
    let s := trackingAt .sent false
    let t := after .batchVoid { s with pulse := { s.pulse with batchVoid := true } }
    (batchOf t 100).status = .void ∧ (ctx t 44).dlBacklog = 100 ∧ t.tracking.ogt = [] := by decide +kernel

theorem test_grant_expiry :
    let s := trackingAt .committed true
    let t :=
      after .grantExpiry
        { s with align := { s.align with epoch := some 103 }, pulse := { s.pulse with grantExpiry := true } }
    t.tracking.ogt = [] ∧ t.tracking.redo.length = 1 := by decide +kernel

theorem test_redo_drop :
    let s := after (.feedback 100 0 true) (trackingAt .committed true)
    let t :=
      after .redoDrop
        { s with align := { s.align with epoch := some 105 }, pulse := { s.pulse with redoDrop := true } }
    t.tracking.redo = [] ∧ t.events.flag .redoDrop = true ∧ t.events.remainder = 36 := by decide +kernel

/-! ## Events, link and control -/

/-- 600 bytes lost and then 10: 9 units of 64, and 34 left (R169). -/
theorem test_bytes_lost :
    let t := loseBytes 10 (loseBytes 600 State.reset)
    (t.events.counter .bytesLost, t.events.remainder) = (9, 34) := by decide +kernel

/-- The example of chapter 11: a CLEAR of LINK_LOSS leaves the flag while the watch is LOST, and clears it after. -/
theorem test_clear_persisting :
    let lost := after .linkLoss (at100 .listening Params.reset)
    let kept := after (.clear 0x40000) (withRecord (.clear 0x40000) lost)
    let cleared := after (.clear 0x40000) (after (.idlePatternReceived 8) kept)
    kept.events.flag .linkLoss = true ∧ cleared.events.flag .linkLoss = false := by decide +kernel

theorem test_link_loss_holds :
    (after .linkLoss (at100 .operating Params.reset)).align.opState = .holding := by decide +kernel

theorem test_record_received_joins :
    (after (.recordReceived (recordBytes (.floor 2))) State.reset).link.fifo = [.floor 2] := by decide +kernel

/-- Two runs of four idle bytes, one inside the bytes of a reception, end a loss: 8 × 3Ch is the shortest valid idle
(R171). -/
theorem test_idle_bytes_restart :
    let lost := after .linkLoss State.reset
    let once := after (.recordReceived [0x3C, 0x3C, 0x3C, 0x3C]) lost
    once.link.lost = true ∧ (after (.idlePatternReceived 4) once).link.lost = false := by decide +kernel

/-- A run of 8 idle bytes before a loss counts for nothing in it: one idle byte leaves the loss and the eighth ends it
(R165, R171). -/
theorem test_idle_run_starts_anew :
    let lost := after .linkLoss (after (.idlePatternReceived 8) State.reset)
    (after (.recordReceived [0x3C]) lost).link.lost = true ∧
      (after (.idlePatternReceived 7) lost).link.lost = true ∧
      (after (.idlePatternReceived 8) lost).link.lost = false := by decide +kernel

/-- A record after an idle byte is taken, and a C3h after noise starts nothing (R159, R171). -/
theorem test_start_follows_idle :
    let bytes := recordBytes (.floor 2)
    (after (.recordReceived ([0x55, 0x3C] ++ bytes)) State.reset).link.fifo = [.floor 2] ∧
      (after (.recordReceived (0x55 :: bytes)) State.reset).link.fifo = [] := by decide +kernel

/-- Two records with nothing between them: the second start byte follows a check word (R171). -/
theorem test_records_back_to_back :
    (after (.recordReceived (recordBytes (.floor 2) ++ recordBytes .realign)) State.reset).link.fifo =
      [.floor 2, .realign] := by decide +kernel

/-- The arrival of a record ends a loss, also behind another head (R165). -/
theorem test_record_ends_loss :
    let lost := withRecord .realign (after .linkLoss (at100 .listening Params.reset))
    let t := after (.floor 2) lost
    lost.link.lost = true ∧ t.link.lost = false ∧ t.link.fifo = [.realign, .floor 2] := by decide +kernel

/-- The line out carries the idle byte between records (R171). -/
theorem test_line_out_idle : State.reset.link.onLine = [0x3C] := by decide +kernel

theorem test_framing_lost :
    let t := after (.framingLost [0x0C]) State.reset
    t.events.flag .linkError = true ∧ t.events.counter .malformed = 1 := by decide +kernel

theorem test_floor :
    (after (.floor 9) (at100 .holding Params.reset)).engine.requestedFloor = 3 := by decide +kernel

theorem test_status_zeroes :
    let s := advance .collisions 5 State.reset
    let t := after (.statusReq true) s
    t.events.counter .collisions = 0 ∧ t.link.queue.length = 1 := by decide +kernel

/-- A CONFIG body with a budget of 5,000, clamped to 4,095 (R108), and no counts, taken as all three (R150). -/
def sampleConfig : ConfigBody :=
  { counts := 0, budget := 5000, floorShare := 80, rampStep := 40, t1 := 120, t2 := 60, adjacency := 0x0C,
    advanceLimit := 333, tailGuard := 200, maxShadow := 2, window := 4, redoMax := 2, redoDistance := 4,
    idleTimer := 64, admitTimeout := 32, ageLimit := 3, edgeGrade := 3, quietGrade := 9, tMin := 1, tMax := 3,
    updateInterval := 8, holdDown := 16, maxSubscribers := 64, overrun := 0, enables := 0x40000,
    levels := 0, threshold := 2 }

theorem test_config_accepted :
    let t := after (.config sampleConfig) (State.resetAt 2)
    t.align.opState = .listening ∧ t.config.budget = 4095 ∧ t.config.ageLimit = 8 ∧ t.config.adjacency = 0x08 ∧
      t.link.queue.length = 1 := by decide +kernel

theorem test_config_locked :
    (after (.config sampleConfig) (at100 .operating Params.reset)).config = Params.reset := by decide +kernel

theorem test_realign :
    let t := after .realign (operatingWith 44 { activeCtx 5 0 0 0 0 1 with state := .closing })
    t.align.opState = .listening ∧ (ctx t 44).state = .free ∧ t.events.flag .released = true := by decide +kernel

theorem test_hard_reset : after (.hardReset 5) (at100 .operating Params.reset) = State.resetAt 5 := by decide +kernel

/-- The generator of R137 at station 0 starts from 257; its first draw of four bits gives 8 (by hand: 1, 0, 0, 0). -/
theorem test_first_draw :
    (BusPort.reset 0).generator = 257#16 ∧ (drawBits 4 (BusPort.reset 0).generator 0).2 = 8 := by decide +kernel

/-! ## Pulses -/

theorem test_pulse_starts_run :
    let t := after (.epochPulse 4000000 []) (at100 .operating Params.reset)
    t.align.epoch = some 101 ∧ t.engine.run.map Run.target = some 103 := by decide +kernel

theorem test_pulse_faults :
    let t := after (.epochPulse 4080001 []) (at100 .operating Params.reset)
    t.align.watch = .faulty ∧ t.align.opState = .holding := by decide +kernel

theorem test_mark_slips :
    let t := after (.markPulse 4000000 []) (at100 .operating Params.reset)
    t.align.epoch = some 0 ∧ t.events.flag .markerSlip = true ∧ t.engine.run = none := by decide +kernel

/-- An rtd of 800 µs with advance_limit 333 and max_shadow 1: barred when T_slot becomes 250 µs, not at 500 µs
(k = 2 and 1, R37, R38). -/
theorem test_period_derives_bars :
    let p := { Params.reset with advanceLimit := 333, maxShadow := 1 }
    let s := setCtx 44 (activeCtx 0 0 800 0 0 0) (at100 .listening p)
    let u := { s with align := { s.align with watch := .unset, period := none } }
    (ctx (after (.epochPulse 2000000 []) u) 44).ulBarred = true ∧
      (ctx (after (.epochPulse 4000000 []) u) 44).ulBarred = false := by decide +kernel

/-- A MARK in LISTENING aligns the count and can be the pulse that ends it (R154, R155). -/
theorem test_mark_ends_listening :
    let s := at100 .listening Params.reset
    let ready :=
      { s with
        align := { s.align with epoch := none, listened := 15 }, peers := { s.peers with settle := 8 } }
    let t := after (.markPulse 4000000 []) ready
    t.align.opState = .operating ∧ t.align.epoch = some 0 := by decide +kernel

theorem test_mark_ends_holding :
    (after (.markPulse 4000000 []) (at100 .holding Params.reset)).align.opState = .operating := by decide +kernel

theorem test_epoch_loss :
    let t := after .epochLoss (at100 .operating Params.reset)
    t.align.watch = .lost ∧ t.align.opState = .holding := by decide +kernel

theorem test_attach_timeout :
    let c := { Context.reset with state := .admitting, admitCount := 16, attachNo := 4 }
    (ctx (after (.attachTimeout 44) (operatingWith 44 c)) 44) = { Context.reset with attachNo := 4 } := by
  decide +kernel

theorem test_go_dormant :
    (ctx (after (.goDormant 44) (operatingWith 44 { activeCtx 0 0 0 0 0 0 with idleCount := 16 })) 44).state =
      .dormant := by decide +kernel

/-! ## The site bus -/

/-- OPERATING with an ABILITY in an access state at an attempt number. -/
def busAt (a : Access) (attempt units : Nat) : State :=
  let s := at100 .operating Params.reset
  { s with
    bus :=
      { s.bus with
        due := some (.ability 2 .operating ⟨⟨true, true, true⟩, false⟩), access := a, attempt := attempt,
        units := units } }

theorem test_idle_defers :
    let t := after .busIdleDetected (busAt .waiting 1 0)
    t.bus.access ≠ .waiting ∧ t.bus.generator ≠ (busAt .waiting 1 0).bus.generator := by decide +kernel

theorem test_deferral_expires : (after .deferralExpired (busAt .deferring 1 3)).bus.access = .sending := by
  decide +kernel

theorem test_deferral_interrupted :
    let t := after (.deferralInterrupted 2) (busAt .deferring 1 3)
    t.bus.access = .waiting ∧ t.bus.units = 1 := by decide +kernel

theorem test_frame_sent : (after .frameSent (busAt .sending 1 0)).bus.due = none := by decide +kernel

theorem test_collision_retries : (after .collision (busAt .sending 3 0)).bus.attempt = 4 := by decide +kernel

theorem test_collision_abandons :
    let t := after .collision (busAt .sending 4 0)
    t.bus.due = none ∧ t.events.counter .unsentFrames = 1 ∧ t.events.counter .collisions = 1 := by decide +kernel

theorem test_jabber :
    let t := after .busJabber (busAt .sending 1 0)
    t.bus.cutOff = true ∧ t.bus.due = none ∧ t.events.counter .unsentFrames = 1 := by decide +kernel

/-- An ANNOUNCE of station 3 at epoch 100 with a claim above the range (R180). -/
def sampleAnnounce (station : Station) : AnnounceFrame :=
  { station := station, opState := 2, epoch := 100, target := 102, claim := 5000, reserved := 0xC, demand := 24,
    modeCode := 2, modeEdge := true }

theorem test_announce_heard :
    let p := (after (.announceReceived (sampleAnnounce 3) false) (at100 .operating Params.reset)).peers.records.get 3
    p.state = .present ∧ p.claim = 4095 ∧ p.misaligned = false ∧ p.mismatch = false := by decide +kernel

theorem test_announce_duplicate :
    let t := after (.announceReceived (sampleAnnounce 2) false) (at100 .operating Params.reset)
    t.events.flag .duplicateStation = true ∧ (t.peers.records.get 2).state = .absent := by decide +kernel

theorem test_ability_heard :
    let f : AbilityFrame :=
      { station := 6, opState := 1, epoch := 65535, c12 := true, c16 := false, c24 := true, edge := false }
    let t := after (.abilityReceived f false) (at100 .listening Params.reset)
    (t.peers.records.get 6).ability = some ⟨⟨true, false, true⟩, false⟩ ∧ t.peers.settle = 0 := by decide +kernel

theorem test_bus_crc :
    let t := after (.busCrc [0x41, 0x00] true) (at100 .listening Params.reset)
    t.events.counter .busCrc = 1 ∧ t.events.flag .busCrc = true := by decide +kernel

/-- After a collision the remainder of the other frame is not taken; after idle line a frame is (R141). -/
theorem test_remainder_not_taken :
    let s := after .collision (busAt .sending 1 0)
    let t := after (.busCrc [0x41, 0x00] true) s
    let u := after (.busCrc [0x41, 0x00] true) { s with bus := { s.bus with midFrame := false } }
    t.events.counter .busCrc = 0 ∧ u.events.counter .busCrc = 1 := by decide +kernel

/-- An ANNOUNCE between a pulse's snapshot and its update event enters the update: 2 and 3 are yielded (R123). -/
theorem test_announce_between_readings :
    let pulsed := after (.epochPulse 4000000 []) { edgeAt 639 0xF 0 [] with
      align := { (edgeAt 639 0xF 0 []).align with epoch := some 639 }, pulse := PulseWork.none
      edge := { (edgeAt 639 0xF 0 []).edge with counter := 7 } }
    let heard := after (.announceReceived { sampleAnnounce 3 with epoch := 640, modeCode := 1 } false) pulsed
    let t := after .updateEvent heard
    (pulsed.engine.run.map fun r => r.snapshot.blockedSet) = some 0#24 ∧ heard.pulse.update = true ∧
      t.edge.holdDown.map HoldDown.band = [2, 3] := by decide +kernel

theorem test_peer_stale :
    let s := setPeer 3 { heldPeer 0 0 with silence := 4 } (at100 .operating Params.reset)
    ((after (.peerStale 3) s).peers.records.get 3).state = .stale := by decide +kernel

theorem test_peer_absent :
    let s := setPeer 3 { heldPeer 0 0 with silence := 64 } (at100 .operating Params.reset)
    let t := after (.peerAbsent 3) s
    (t.peers.records.get 3).state = .absent ∧ (t.peers.records.get 3).adjacent = true ∧
      t.events.flag .peerAbsent = true := by decide +kernel

theorem test_record_sent :
    (after .recordSent (after (.query 3) State.reset)).link.queue = [] := by decide +kernel

/-! ## The step -/

theorem test_step_takes_front :
    step { State.reset with pending := [.query 3, .realign] } =
      exec (.query 3) { State.reset with pending := [.realign] } := rfl

/-! ## Witnesses: a state and operands that meet the hypotheses of each statement, clause by clause -/

/-- A NOTICE that fills the outbound queue. -/
def filler : OutRecord := .notice { event := .released, subject := 0, code := .done, epoch := none }

/-- A state with the outbound queue filled to a length. -/
def withQueue (n : Nat) (s : State) : State := { s with link := { s.link with queue := List.replicate n filler } }

/-- A state with the given contents of the FIFO. -/
def withFifo (n : Nat) : State := setFifo (List.replicate n .realign) State.reset

theorem witness_StepRunsFrontCommand :
    ({ State.reset with pending := [.query 3, .realign] } : State).pending = .query 3 :: [.realign] := rfl

theorem witness_LaterCommandFinishesPulse :
    (Instr.query 3).insidePulse = false ∧ (Instr.runCompletion).insidePulse = false ∧
      State.reset.pulse.pending = false ∧ (edgeAt 640 0b111 0b1100 []).pulse.pending = true ∧
      ∃ t, exec (.busCrc [0x41] true) (edgeAt 640 0b111 0b1100 []) = .next t :=
  ⟨rfl, rfl, rfl, rfl, _, rfl⟩

theorem witness_RecordCommandMeetsFifo :
    let held := withQueue 28 (withRecord (.query 3) State.reset)
    let room := withQueue 27 State.reset
    (Instr.query 3).record? = some (.query 3) ∧ room.pulse.pending = false ∧ outOfRange (.query 3) = false ∧
      room.link.fifo = [] ∧ room.link.ready = true ∧ ¬(32 - room.link.queue.length ≤ 4) ∧
      (withQueue 28 State.reset).link.fifo = [] ∧ 32 - (withQueue 28 State.reset).link.queue.length ≤ 4 ∧
      held.pulse.pending = false ∧ held.link.fifo = clampRecord (.query 3) :: [] ∧
      recordKind (.query 3) = .query ∧ 32 - held.link.queue.length ≤ 4 := by decide +kernel

theorem witness_RecordCommandMeetsFifo_behind :
    (withFifo 63).pulse.pending = false ∧ (withFifo 63).link.fifo.length < 64 ∧ 64 ≤ (withFifo 64).link.fifo.length ∧
      (withFifo 63).link.fifo = .realign :: List.replicate 62 .realign ∧
      (withFifo 64).link.fifo = .realign :: List.replicate 63 .realign ∧
      Record.realign ≠ clampRecord (.query 3) := by decide +kernel

theorem witness_RecordCommandMeetsFifo_range :
    (Instr.channel 1 16 0).record? = some (.channel 1 16 0) ∧ (15 < 16 ∨ 15 < 0) ∧
      (Instr.feedback 5 32 true).record? = some (.feedback 5 32 true) ∧ 31 < 32 ∧
      State.reset.pulse.pending = false := by decide +kernel

theorem witness_UnconfiguredRefusesRecords :
    (withRecord (.floor 1) State.reset).Hands (clampRecord (.floor 1)) [] ∧
      (Record.floor 1).refusedByLinkError = true ∧ outOfRange (.floor 1) = false ∧
      (withRecord (.attach 1 2 3 4 5) State.reset).Hands (clampRecord (.attach 1 2 3 4 5)) [] ∧
      (withRecord (.release 1) State.reset).Hands (clampRecord (.release 1)) [] ∧
      State.reset.align.opState = .unconfigured := by
  unfold State.Hands; decide +kernel

theorem witness_ClearClearsFlags :
    (withRecord (.clear 0x1FFFFFFF) State.reset).Hands (clampRecord (.clear 0x1FFFFFFF)) [] ∧
      State.reset.align.opState = .unconfigured ∧
      (withRecord (.clear 0x1FFFFFFF) (at100 .holding Params.reset)).Hands (clampRecord (.clear 0x1FFFFFFF)) [] ∧
      (at100 .holding Params.reset).align.opState ≠ .unconfigured := by
  unfold State.Hands; decide +kernel

theorem witness_RepliesToQueryAndStatusRequest :
    (withQueue 27 (withRecord (.query 255) State.reset)).Hands (.query 255) [] ∧
      (withRecord (.statusReq true) State.reset).Hands (.statusReq true) [] := by
  unfold State.Hands; decide +kernel

theorem witness_AttachIsDecided :
    let r : Record := .attach 7 1 2 3 4
    let s := withRecord r (at100 .listening Params.reset)
    let full := withRecord r (operatingWith 9 (activeCtx 0 0 0 0 0 0))
    let used := withRecord r (operatingWith 7 (activeCtx 0 0 0 0 0 0))
    s.Hands (clampRecord r) [] ∧ s.align.opState ≠ .unconfigured ∧ (ctx s 7).state = .free ∧
      attachedCount s < s.config.maxSubscribers ∧ full.Hands (clampRecord r) [] ∧ (ctx full 7).state = .free ∧
      attachedCount full = full.config.maxSubscribers ∧ used.Hands (clampRecord r) [] ∧
      (ctx used 7).state ≠ .free ∧ (withRecord r State.reset).Hands (clampRecord r) [] := by
  unfold State.Hands; decide +kernel

theorem witness_ReleaseIsDecided :
    let s := fun (n : Nat) (st : ContextState) =>
      withRecord (.release 9) (operatingWith 9 { activeCtx 5 6 0 0 0 n with state := st })
    (s 1 .active).Hands (.release 9) [] ∧ (ctx (s 1 .active) 9).state.attached = true ∧
      0 < (ctx (s 1 .active) 9).outstanding ∧ (s 0 .dormant).Hands (.release 9) [] ∧
      (ctx (s 0 .dormant) 9).outstanding = 0 ∧ (s 0 .free).Hands (.release 9) [] ∧
      (s 1 .closing).Hands (.release 9) [] ∧ (s 1 .active).align.opState ≠ .unconfigured ∧
      (withRecord (.release 9) State.reset).Hands (.release 9) [] := by
  unfold State.Hands; decide +kernel

theorem witness_ReportOnFreeOrClosingIsStray :
    let s := withRecord (.range 9 1000) (at100 .holding Params.reset)
    (Instr.range 9 1000).record? = some (.range 9 1000) ∧ (Record.range 9 1000).reportIndex = some 9 ∧
      s.Hands (clampRecord (.range 9 1000)) [] ∧ outOfRange (.range 9 1000) = false ∧
      s.align.opState ≠ .unconfigured ∧ (ctx s 9).state = .free := by
  unfold State.Hands; decide +kernel

theorem witness_BacklogReports :
    let s := fun (r : Record) => withRecord (clampRecord r) (operatingWith 9 (activeCtx 1048575 0 0 0 0 0))
    (s (.dlData 9 16777215)).Hands (clampRecord (.dlData 9 16777215)) [] ∧
      (s (.ulBuf 9 1048576)).Hands (clampRecord (.ulBuf 9 1048576)) [] ∧
      (s (.ulBuf 9 0)).align.opState ≠ .unconfigured ∧ (ctx (s (.ulBuf 9 0)) 9).state.attached = true := by
  unfold State.Hands; decide +kernel

theorem witness_ChannelRangeAndLateReports_grades :
    let s := withRecord (.channel 9 15 0) (operatingWith 9 { Context.reset with state := .admitting })
    s.Hands (.channel 9 15 0) [] ∧ s.align.opState ≠ .unconfigured ∧ (ctx s 9).state.attached = true := by
  unfold State.Hands; decide +kernel

theorem witness_ChannelRangeAndLateReports :
    let s := fun (r : Record) => withRecord (clampRecord r) (operatingWith 9 (activeCtx 0 0 400 0 2 0))
    (s (.range 9 1000)).Hands (clampRecord (.range 9 1000)) [] ∧
      (s (.late 9 300)).Hands (clampRecord (.late 9 300)) [] ∧ (s (.late 9 0)).align.opState ≠ .unconfigured ∧
      (ctx (s (.late 9 0)) 9).state.attached = true := by
  unfold State.Hands; decide +kernel

/-- An entry of the Redo List with a deadline and a creation. -/
def redoAt (deadline created : Epoch) (serial : Nat) : RedoEntry :=
  { context := 44, direction := .dl, width := 1, height := 8, grade := 3, bytes := 100, redoNumber := 1,
    origin := { epoch := created, index := serial }, deadline := deadline,
    order := { epoch := created, serial := serial } }

theorem witness_ChargesRefundsAndReturns :
    let s := operatingWith 9 (activeCtx 5 6 0 0 0 0)
    let full := setRedo (List.replicate 48 (redoAt 104 100 0)) s
    (ctx s 9).state.attached = true ∧ (ctx s 8).state = .free ∧
      (ctx (operatingWith 9 { activeCtx 5 6 0 0 0 1 with state := .closing }) 9).state = .closing ∧
      513 ≤ ((99 : Epoch) - 100).val ∧ ¬513 ≤ ((100 : Epoch) - 100).val ∧ 48 ≤ full.tracking.redo.length ∧
      ¬48 ≤ s.tracking.redo.length := by decide +kernel

/-- Epochs across the end of the count, 511 apart at most, and a list in order. -/
theorem witness_RedoEntryTakesItsPlace :
    let l := [redoAt 1020 1000 0, redoAt 3 1000 0, redoAt 3 1000 1]
    let key := fun x : RedoEntry => ((x.deadline - 600).val, (x.order.epoch - 500).val, x.order.serial)
    let before := fun x y : RedoEntry =>
      (key x).1 < (key y).1 ∨
        (key x).1 = (key y).1 ∧
          ((key x).2.1 < (key y).2.1 ∨ (key x).2.1 = (key y).2.1 ∧ (key x).2.2 < (key y).2.2)
    (∀ x ∈ redoAt 87 1001 0 :: l, (x.deadline - 600).val ≤ 511 ∧ (x.order.epoch - 500).val ≤ 511) ∧
      ((87 : Epoch) - 600).val = 511 ∧ l.Pairwise (fun x y => ¬before y x) := by decide +kernel

theorem witness_ReceiptByBatchRecord :
    let s := fun (st : BatchStatus) => withRecord (.receipt 100) (trackingAt st false)
    (s .sent).Hands (.receipt 100) [] ∧ (s .sent).align.opState ≠ .unconfigured ∧
      (s .sent).tracking.ring.get (ringIndex 100) = { target := some 100, status := .sent } ∧
      (s .committed).tracking.ring.get (ringIndex 100) = { target := some 100, status := .committed } ∧
      (s .void).tracking.ring.get (ringIndex 100) = { target := some 100, status := .void } ∧
      (s .missed).tracking.ring.get (ringIndex 100) = { target := some 100, status := .missed } ∧
      (withRecord (.receipt 116) (trackingAt .sent false)).Hands (.receipt 116) [] ∧
      ((s .sent).tracking.ring.get (ringIndex 116)).target ≠ some 116 ∧
      (withRecord (.receipt 100) State.reset).Hands (.receipt 100) [] := by
  unfold State.Hands; decide +kernel

theorem witness_FeedbackByEntry :
    let s := fun (c : Bool) (n : Nat) => withRecord (.feedback 100 n true) (trackingAt .committed c)
    (s true 0).Hands (.feedback 100 0 true) [] ∧
      (s true 0).tracking.ogt.find? (fun g => g.tag == { epoch := 100, index := 0 }) =
        some (grantAt 100 0 true 102) ∧
      (s false 0).Hands (.feedback 100 0 true) [] ∧
      (s false 0).tracking.ogt.find? (fun g => g.tag == { epoch := 100, index := 0 }) =
        some (grantAt 100 0 false 102) ∧
      (s true 31).Hands (.feedback 100 31 true) [] ∧
      (s true 31).tracking.ogt.find? (fun g => g.tag == { epoch := 100, index := 31 }) = none ∧
      (s true 32).Hands (.feedback 100 32 true) [] ∧ (s true 0).align.opState ≠ .unconfigured ∧
      (withRecord (.feedback 100 0 true) State.reset).Hands (.feedback 100 0 true) [] := by
  unfold State.Hands; decide +kernel

theorem witness_FloorSetsRequestedFloor :
    let s := withRecord (.floor 3) (at100 .listening Params.reset)
    s.Hands (clampRecord (.floor 255)) [] ∧ s.align.opState ≠ .unconfigured ∧
      (withRecord (.floor 3) State.reset).Hands (clampRecord (.floor 3)) [] ∧
      (rankedCandidates (snapshot410 1) 410 .dl).length = 3 := by
  unfold State.Hands; decide +kernel

/-- A command that is neither FLOOR nor hard reset, and answers a next state. -/
theorem witness_FloorSetsRequestedFloor_others : ∃ t, exec .epochLoss State.reset = .next t := ⟨_, rfl⟩

theorem witness_ConfigIsAcceptedOnce :
    (withRecord (.config sampleConfig) State.reset).Hands (.config sampleConfig) [] ∧
      State.reset.align.opState = .unconfigured ∧
      (withRecord (.config sampleConfig) (at100 .operating Params.reset)).Hands (.config sampleConfig) [] := by
  unfold State.Hands; decide +kernel

/-- A body with a threshold T2 above T1, and one whose every figure stands at the top of its range. -/
def topConfig : ConfigBody :=
  { sampleConfig with
    budget := 4095, floorShare := 4095, rampStep := 1024, t1 := 4095, t2 := 4095, advanceLimit := 700,
    tailGuard := 250, maxShadow := 3, window := 8, redoMax := 3, redoDistance := 16, idleTimer := 1024,
    admitTimeout := 255, ageLimit := 255, edgeGrade := 8, quietGrade := 15, tMin := 4, tMax := 8,
    updateInterval := 64, holdDown := 255, maxSubscribers := 256 }

theorem witness_ConfigValuesLieInRange :
    clampConfig 2 topConfig =
      { budget := 4095, floorShare := 4095, rampStep := 1024, t1 := 4095, t2 := 4095, advanceLimit := 700,
        tailGuard := 250, maxShadow := 3, window := 8, redoMax := 3, redoDistance := 16, idleTimer := 1024,
        admitTimeout := 255, ageLimit := 255, edgeGrade := 8, quietGrade := 15, tMin := 4, tMax := 8,
        updateInterval := 64, holdDown := 255, maxSubscribers := 256, counts := ⟨true, true, true⟩,
        edgeCapable := false, adjacency := 0x08, keepPolicy := false } ∧
      (clampConfig 2 { sampleConfig with t2 := 200 }).t1 < (BitVec.toNat 200#16) := by decide +kernel

theorem witness_RealignReturnsToListening :
    let s := withRecord .realign (busAt .waiting 1 0)
    let u := withRecord .realign (busAt .sending 1 0)
    s.Hands .realign [] ∧ s.align.opState ≠ .unconfigured ∧ s.bus.access ≠ .sending ∧ u.Hands .realign [] ∧
      u.align.opState ≠ .unconfigured ∧ u.bus.access = .sending := by
  unfold State.Hands; decide +kernel

theorem witness_SettingsChangeByTheirCommandsAlone :
    (∃ t, exec .epochLoss State.reset = .next t) ∧ (∀ st, Instr.epochLoss ≠ .hardReset st) ∧
      (∀ b, Instr.epochLoss ≠ .config b) ∧ Instr.epochLoss ≠ .busIdleDetected ∧
      (after .busJabber State.reset).bus.cutOff = true ∧
      (at100 .operating Params.reset).align.opState ≠ .unconfigured := by
  refine ⟨⟨_, rfl⟩, ?_, ?_, ?_, ?_, ?_⟩
  · intro _ h; cases h
  · intro _ h; cases h
  all_goals decide +kernel

theorem witness_RecordBytesAreReceivedAsTheRecord :
    (Record.attach 255 16777215 255 255 65535).fits = true ∧ (Record.feedback 1023 31 true).fits = true ∧
      (Record.channel 3 15 15).fits = true ∧ (withFifo 63).pulse.pending = false ∧
      (withFifo 63).link.afterIdle = true ∧ (withFifo 64).link.afterIdle = true ∧
      (withFifo 63).link.fifo.length < 64 ∧ 64 ≤ (withFifo 64).link.fifo.length := by decide +kernel

theorem witness_MalformedRecordIsDiscarded :
    let right := checkWord ([0x0C#8] ++ fieldBytes 2 1 ++ [2#8])
    0x0000#16 ≠ right ∧ (Kind.all.all fun k => k.code != 0x10#8) = true ∧ Kind.floor.code = 0x0C#8 ∧
      [2#8, 0#8].length ≠ Kind.floor.length ∧ State.reset.pulse.pending = false ∧
      State.reset.link.afterIdle = true ∧ 31 < ([2#8, 1#8, 32#8, 0#8].getD 2 0).toNat ∧
      15 < ([3#8, 0#8, 16#8].getD 2 0).toNat := by decide +kernel

theorem witness_LinkEvents :
    State.reset.pulse.pending = false ∧ 8 ≤ State.reset.link.idleRun + 8 ∧ State.reset.link.idleRun + 7 < 8 ∧
      (0x55#8 ≠ 0x3C#8) ∧ (0x55#8 ≠ 0xC3#8) ∧
      (after (.recordReceived [0x55]) State.reset).link.afterIdle = false ∧
      (after (.recordReceived [0x55]) State.reset).pulse.pending = false ∧ State.reset.link.queue = [] ∧
      (withQueue 1 State.reset).link.queue = filler :: [] := by decide +kernel

theorem witness_LossOfLinkOrPulses_outside :
    let s := at100 .holding Params.reset
    s.pulse.pending = false ∧ s.link.lost = false ∧ s.align.opState ≠ .operating ∧ s.align.watch = .regular ∧
      (after .linkLoss s).link.lost = true ∧ (after .linkLoss s).pulse.pending = false ∧
      State.reset.align.watch = .unset := by decide +kernel

/-- The state of the tests with batch 100 SENT keeps its ring in place. -/
theorem ring_placed : (trackingAt .sent false).RingPlaced := by
  intro p
  by_cases h : p = ringIndex 100
  · subst h
    exact fun _ => ⟨100, by decide +kernel, rfl⟩
  · have : (trackingAt .sent false).tracking.ring.get p = BatchRecord.empty := by
      revert p; decide +kernel
    rw [this]
    intro h; cases h

theorem witness_LossOfLinkOrPulses :
    (trackingAt .sent false).RingPlaced ∧ (trackingAt .sent false).pulse.pending = false ∧
      (trackingAt .sent false).align.opState = .operating ∧ (trackingAt .sent false).link.lost = false ∧
      (trackingAt .sent false).align.watch = .regular :=
  ⟨ring_placed, by decide +kernel⟩

theorem witness_EpochPulseAdvancesAndJudges :
    (at100 .holding Params.reset).pulse.pending = false ∧ (at100 .holding Params.reset).align.opState ≠ .unconfigured ∧
      State.reset.pulse.pending = false ∧ State.reset.align.opState = .unconfigured := by decide +kernel

/-- OPERATING with batch 100 SENT, a run in flight for 101, a COMMITTED grant of batch 99 and PLAN_MISSED or BATCH_VOID
enabled. -/
def holdingAhead (enables : BitVec 29) : State :=
  let s := trackingAt .sent false
  let t := setOgt (s.tracking.ogt ++ [grantAt 99 1 true 104]) s
  { t with
    engine := { t.engine with run := some { run410 with target := 101 } }
    events := { t.events with enables := enables } }

/-- The run, the void batch and the kept grant at an entry to HOLDING. -/
theorem test_entry_voids_and_keeps :
    let t := after .linkLoss (holdingAhead 2)
    (batchOf t 101) = { target := some 101, status := .missed } ∧ (batchOf t 100).status = .void ∧
      t.tracking.ogt.map OgtEntry.tag = [(grantAt 99 1 true 104).tag] ∧ t.events.counter .plansMissed = 1 ∧
      t.events.counter .batchesVoided = 1 ∧ (ctx t 44).dlBacklog = 100 ∧
      t.link.queue =
        [.notice { event := .batchVoid, subject := 100, code := .none, epoch := some 100 }] := by decide +kernel

/-- What the clauses on the entry to HOLDING meet: both enables, room, bounds and both orders. -/
theorem witness_entry :
    let s := holdingAhead 2
    s.RingPlaced ∧ s.pulse.pending = false ∧ s.align.opState = .operating ∧ s.engine.run.isSome = true ∧
      s.voidedTargets = [100] ∧ s.voidedGrants.length = 1 ∧ s.events.enabled .batchVoid = true ∧
      (EventKind.all.filter s.events.enabled) = [.batchVoid] ∧ s.link.queue.length + s.voidedTargets.length ≤ 24 ∧
      (holdingAhead 1).events.enabled .planMissed = true ∧ (holdingAhead 1).link.queue.length ≤ 20 ∧
      ringIndex 101 ≠ ringIndex (101 + 2) ∧ s.align.mode.isSome = true ∧ s.align.epoch = some 100 :=
  ⟨ring_placed, by decide +kernel⟩

/-- The figures of the entry's witness lie in their ranges. -/
theorem witness_entry_figures : (holdingAhead 2).FiguresBounded := by
  unfold State.FiguresBounded; decide +kernel

/-- A pulse just out of tolerance in OPERATING with a batch SENT, and one measured by no period in UNSET. -/
theorem witness_EpochPulseAdvancesAndJudges_fault :
    let s := trackingAt .sent false
    let e := { s with events := { s.events with enables := 0x4000 } }
    let u := { s with align := { s.align with watch := .unset } }
    s.RingPlaced ∧ s.align.opState = .operating ∧ s.align.watch = .regular ∧
      intervalRegular s.align 4080001 = false ∧ intervalRegular s.align 4080000 = true ∧
      e.events.enabled .epochFault = true ∧ e.link.queue.length ≤ 22 ∧ u.align.watch = .unset ∧
      u.align.timing = true ∧ measuredPeriod 2040001 = none :=
  ⟨ring_placed, by decide +kernel⟩

theorem witness_PulseRaisesTheCounts :
    let s := at100 .operating Params.reset
    let h := at100 .holding Params.reset
    s.pulse.pending = false ∧ s.align.opState = .operating ∧ s.align.watch = .regular ∧
      intervalRegular s.align 4000000 = true ∧ h.pulse.pending = false ∧ h.align.opState = .holding ∧
      (at100 .listening Params.reset).align.opState = .listening ∧
      (ctx (operatingWith 44 (activeCtx 0 0 0 0 0 0)) 44).state = .active ∧
      (ctx (after (.markPulse 4000000 []) (operatingWith 44 (activeCtx 0 0 0 0 0 0))) 44).idleCount = 1 ∧
      (ctx (after (.markPulse 4000000 []) (operatingWith 44 (activeCtx 0 0 0 0 0 1))) 44).idleCount = 0 := by
  decide +kernel

theorem witness_ListeningEndsInOperating :
    let s := at100 .listening Params.reset
    let ready := { s with peers := { s.peers with settle := 8 }, align := { s.align with listened := 16 } }
    s.pulse.pending = false ∧ s.align.opState = .listening ∧ s.peers.settle < 8 ∧
      ready.align.epoch.isSome = true ∧ 16 ≤ ready.align.listened ∧ 8 ≤ ready.peers.settle ∧
      ready.align.watch = .regular ∧ ready.link.lost = false ∧ ready.link.queue.length ≤ 15 ∧
      ({ ready.events with enables := 0x4000000 } : EventUnit).enabled .modeSet = true ∧
      (watchAfter ready.align 4000000).1 = .regular := by decide +kernel

theorem witness_PulseInOperatingStartsRun :
    let s := at100 .operating Params.reset
    s.pulse.pending = false ∧ s.align.opState = .operating ∧ s.align.mode = some ⟨.s24, true⟩ ∧
      s.align.epoch = some 100 ∧ s.align.watch = .regular ∧ intervalRegular s.align 3920000 = true ∧
      intervalRegular s.align 4080000 = true ∧ s.config.floorShare ≤ s.config.budget ∧
      (holdingAhead 1).pulse.pending = false ∧ (holdingAhead 1).align.mode = some ⟨.s24, true⟩ ∧
      (holdingAhead 1).align.watch = .regular ∧ (holdingAhead 1).engine.run.isSome = true ∧
      (holdingAhead 1).events.enabled .planMissed = true ∧ (holdingAhead 1).link.queue.length ≤ 20 := by decide +kernel

theorem witness_MarkBringsRecovery :
    let s := at100 .operating Params.reset
    s.pulse.pending = false ∧ s.align.opState = .operating ∧ s.align.epoch = some 100 ∧ (100 : Epoch) ≠ 1023 ∧
      s.align.watch = .regular ∧ intervalRegular s.align 4000000 = true ∧
      (holdingAhead 1).align.watch = .regular ∧ (holdingAhead 1).engine.run.isSome = true ∧
      (holdingAhead 1).events.enabled .planMissed = true ∧ (holdingAhead 1).link.queue.length ≤ 20 := by decide +kernel

/-- A CLOSING context, RELEASED enabled and an empty outbound queue at a MARK. -/
theorem witness_EmptyingReported :
    let s := setCtx 44 { activeCtx 0 0 0 0 0 1 with state := .closing } (at100 .operating Params.reset)
    let e := { s with events := { s.events with enables := 0x400 } }
    let closing := (List.finRange 256).filter fun i => decide ((ctx e i).state = .closing)
    (44 : Index) ∈ closing ∧ e.align.watch ≠ .unset ∧ e.events.enabled .released = true ∧
      e.link.queue.length + closing.length ≤ 16 ∧
      (after (.markPulse 4000000 []) e).events.flag .released = true := by decide +kernel

theorem witness_MarkInHolding :
    let s := at100 .holding Params.reset
    s.pulse.pending = false ∧ s.align.opState = .holding ∧ s.align.epoch = some 100 ∧ s.engine.run = none ∧
      (watchAfter s.align 4000000).1 = .regular ∧ s.link.lost = false ∧ (watchAfter s.align 1).1 ≠ .regular := by
  decide +kernel

/-- The parts of a pulse's work that the tests take, all due. -/
def allDue (s : State) : State :=
  { s with
    pulse :=
      { s.pulse with
        pending := true, batchVoid := true, grantExpiry := true, redoDrop := true, holdDown := true } }

/-- Every backlog and average of the tests' tracking state lies in its range. -/
theorem figures_bounded : (allDue (trackingAt .sent false)).FiguresBounded := by
  unfold State.FiguresBounded; decide +kernel

theorem witness_BatchVoidAtTarget :
    let s := allDue (trackingAt .sent false)
    let u := allDue (trackingAt .committed true)
    s.align.epoch = some 100 ∧ s.pulse.batchVoid = true ∧ s.align.opState = .operating ∧
      s.tracking.ring.get (ringIndex 100) = { target := some 100, status := .sent } ∧
      u.tracking.ring.get (ringIndex 100) ≠ { target := some 100, status := .sent } ∧
      State.reset.pulse.batchVoid = false := by decide +kernel

theorem witness_ExpiryAndDeadlineRemoval :
    let s := allDue (trackingAt .committed true)
    s.align.epoch = some 100 ∧ s.align.opState = .operating ∧ s.pulse.grantExpiry = true ∧
      s.pulse.redoDrop = true ∧ s.CountersBounded := by
  unfold State.CountersBounded
  refine ⟨?_, ?_, ?_, ?_, ?_, ?_⟩ <;> decide +kernel

/-- Two entries past their deadline leave in list order, each with its NOTICE, at both ends of the room. -/
theorem witness_ExpiryAndDeadlineRemoval_told :
    let s := allDue (setRedo [redoAt 98 94 0, redoAt 99 95 0, redoAt 104 99 0] (at100 .operating Params.reset))
    let e := { withQueue 18 s with events := { s.events with enables := 0x20 } }
    let gone := e.tracking.redo.filter fun x => decide (513 ≤ (x.deadline - 100).val)
    e.align.epoch = some 100 ∧ e.pulse.redoDrop = true ∧ gone.length = 2 ∧ e.events.enabled .redoDrop = true ∧
      e.events.enabled .counterHalf = false ∧ e.link.queue.length + 3 * gone.length = 24 ∧
      (withQueue 22 e).link.queue.length + gone.length = 24 ∧
      (after .redoDrop e).link.queue.drop 18 =
        gone.map fun x =>
          .notice { event := .redoDrop, subject := x.context.val, code := .deadline, epoch := some 100 } := by
  decide +kernel

theorem witness_EdgeUpdateAndHoldDown :
    let s := edgeAt 640 0b111 0b1100 [{ band := 5, expiry := 640 }]
    let due := { s with pulse := { s.pulse with holdDown := true } }
    s.pulse.update = true ∧ s.pulse.holdDown = false ∧ s.align.opState = .operating ∧ edgeOn s = true ∧
      due.pulse.update = true ∧ due.pulse.holdDown = true ∧ edgeOn due = true ∧ s.align.epoch = some 640 ∧
      State.reset.pulse.update = false := by decide +kernel

theorem witness_EdgeUpdateAndHoldDown_expiry :
    let s := allDue (trackingAt .sent false)
    s.align.epoch = some 100 ∧ s.pulse.holdDown = true ∧ s.align.opState = .operating ∧
      (trackingAt .sent false).pulse.holdDown = false := by decide +kernel

theorem witness_RunCompletionDeliversPlan :
    let s := at100 .operating Params.reset
    let t := withQueue 31 { s with engine := { s.engine with run := some run410 } }
    s.pulse.pending = false ∧ s.engine.run = none ∧ (withQueue 32 s).link.queue.length = 32 ∧
      t.engine.run = some run410 ∧ t.link.queue.length < 32 := by decide +kernel

/-- OPERATING with the run of 4.8 in flight. -/
def running410 : State :=
  let s := at100 .operating Params.reset
  { s with engine := { s.engine with run := some run410 } }

theorem witness_CompletionHandsOff :
    running410.pulse.pending = false ∧ running410.engine.run = some run410 ∧ running410.link.queue.length < 32 ∧
      (run410.snapshot.contexts.map SnapContext.index).Nodup := by decide +kernel

theorem witness_FramesBecomeDue :
    let listening := at100 .listening Params.reset
    running410.bus.cutOff = false ∧ (busAt .sending 1 0).bus.access = .sending ∧
      (busAt .waiting 1 0).bus.access ≠ .sending ∧ running410.pulse.pending = false ∧
      running410.engine.run = some run410 ∧ running410.link.queue.length < 32 ∧
      running410.align.opState = .operating ∧ running410.link.lost = false ∧ running410.align.watch = .regular ∧
      intervalRegular running410.align 4000000 = true ∧ (at100 .operating Params.reset).engine.run = none ∧
      listening.bus.cutOff = false ∧ listening.pulse.pending = false ∧ listening.align.opState = .listening ∧
      intervalRegular running410.align 4080001 = false ∧ running410.align.mode.isSome = true ∧
      running410.align.epoch = some 100 := by
  decide +kernel

/-- A grid of 12 sub-bands with nothing placed, and what an entry that finds no place meets: no allowance, or no FREE
tile. -/
def progress410 (grid : Grid) (remaining : Nat) : Progress :=
  { grid := grid, remaining := remaining, placed := [], unplaced := 0 }

/-- Sub-band 0, inside the own set, is the first range of width 1 for an edge grade in the snapshot of 3.7; with no
allowance left no range qualifies. -/
theorem witness_DownlinkEntryIsPlaced :
    let sn := snapshot410 1
    let free := progress410 (freeGrid 12) 110
    (min 48 ((60 + (gradeRow 3).yield - 1) / (gradeRow 3).yield) + 7) / 8 = 1 ∧ sn.RangeFirst free 3 1 0 ∧
      (∀ w' f', 1 < w' → w' ≤ 1 → ¬sn.RangeQualifies free 3 w' f') ∧
      (∀ w f, 1 ≤ w → ¬sn.RangeQualifies (progress410 (freeGrid 12) 0) 3 w f) := by
  refine ⟨by decide +kernel, ⟨⟨by decide, ?_, by decide +kernel⟩, 1, ?_, ?_⟩, ?_, ?_⟩
  · intro i k hi hk
    obtain rfl : i = 0 := by omega
    revert k; decide +kernel
  · simp [Snapshot.Tries, snapshot410]
  · rintro f n - h
    simp only [Snapshot.Tries] at h
    rcases h with ⟨rfl, -⟩ | ⟨rfl, -⟩ <;> simp [snapshot410]
  · intro w' f' h1 h2; omega
  · rintro w f hw ⟨⟨-, -, h⟩, -⟩
    have c : 0 < (gradeRow 3).cost := by decide +kernel
    have : 0 < 8 * w * (gradeRow 3).cost := Nat.mul_pos (by omega) c
    exact absurd h (by simpa [progress410] using by omega)

/-- Sub-band 0 from slot 0 is the first position for a candidate of 3.7's snapshot that is not late; on a grid with no
FREE tile no position qualifies; the snapshot holds a barred context, one that is not, and not index 5. -/
theorem witness_UplinkEntryIsPlaced :
    let sn := snapshot410 1
    let row := gradeRow 3
    let free := progress410 (freeGrid 12) 110
    1 ≤ min 8 (((60 + row.yield - 1) / row.yield + row.ulWidth - 1) / row.ulWidth) ∧
      sn.PositionFirst free 200 0 1 1 0 0 ∧
      (∀ h f x, 1 ≤ h → ¬sn.PositionQualifies (progress410 [] 110) 200 0 1 h f x) ∧
      ((sn.contexts.find? fun c => c.index == 7).map fun c => c.ulBarred) = some true ∧
      ((sn.contexts.find? fun c => c.index == 3).map fun c => c.ulBarred) = some false ∧
      sn.contexts.find? (fun c => c.index == 5) = none ∧ 1 ≤ (redoAt 104 100 0).height := by
  refine ⟨by decide +kernel, ⟨⟨by decide, by decide, ?_, ?_⟩, ?_⟩, ?_, by decide +kernel⟩
  · intro i j hi hj
    obtain rfl : i = 0 := by omega
    obtain rfl : j = 0 := by omega
    decide +kernel
  · intro i j hi hj
    have : (snapshot410 1).shadowBehind 200 0 1 0 = 0 := by decide +kernel
    omega
  · intro f' x' _
    have : ¬1 ≤ shadowCount (snapshot410 1).advanceLimit (snapshot410 1).slotTime 200 0 := by decide +kernel
    rw [if_neg this]
    omega
  · rintro h f x hh ⟨-, -, free, -⟩
    have := free 0 0 (by omega) (by omega)
    simp [tileAt, progress410] at this

theorem witness_CandidateOrderIsTotal :
    let l := rankedCandidates (snapshot410 1) 410 .dl
    (l.map fun c => c.context.val) = [9, 3, 7] ∧ ((snapshot410 1).contexts.map SnapContext.index).Nodup := by
  decide +kernel

theorem witness_Allowance :
    powerParams.floorShare ≤ powerParams.budget ∧ powerParams.budget ≤ 600 ∧
      ((120 : Int) + powerParams.rampStep ≤ max 0 ((powerParams.budget : Int) - 400)) ∧
      powerParams.budget ≤ 560 + powerParams.rampStep ∧ powerParams.rampStep ≤ 1024 := by decide +kernel

theorem witness_LatenessAndUplinkBar :
    let s := at100 .listening Params.reset
    let u := { s with align := { s.align with watch := .unset } }
    0 < slotTime State.reset ∧ u.pulse.pending = false ∧ u.align.opState = .listening ∧ u.align.watch = .unset ∧
      u.align.timing = true ∧ measuredPeriod 2040000 = some .ms2 ∧ measuredPeriod 3920000 = some .ms4 := by
  decide +kernel

theorem witness_BusAccess :
    (busAt .waiting 1 0).pulse.pending = false ∧ (busAt .waiting 1 0).align.opState ≠ .unconfigured ∧
      (busAt .waiting 1 0).bus.access = .waiting ∧ (busAt .empty 1 0).bus.access = .empty ∧
      (busAt .deferring 1 3).bus.access = .deferring ∧ 2 < (busAt .deferring 1 3).bus.units := by decide +kernel

theorem witness_BusAttemptOutcomes :
    let s := busAt .sending 3 0
    let f := s.bus.due
    s.pulse.pending = false ∧ s.bus.access = .sending ∧ s.bus.noRetry = false ∧ f.isSome = true ∧
      s.bus.newer = none ∧ s.bus.attempt < 4 ∧ 4 ≤ (busAt .sending 4 0).bus.attempt ∧
      ({ s.bus with newer := f } : BusPort).newer.isSome = true ∧
      (after .realign s).bus.noRetry = true ∧ (after .realign s).bus.access = .sending ∧
      (after .realign s).bus.newer = none := by decide +kernel

theorem witness_JabberCutsTheTransmitterOff :
    (busAt .sending 1 0).pulse.pending = false ∧ (busAt .sending 1 0).bus.cutOff = false ∧
      (after .busJabber (busAt .sending 1 0)).bus.cutOff = true ∧
      (after .busJabber (busAt .sending 1 0)).pulse.pending = false := by decide +kernel

theorem witness_FramesHeard :
    let s := at100 .listening Params.reset
    s.pulse.pending = false ∧ s.align.opState ≠ .unconfigured ∧ s.bus.access ≠ .sending ∧ s.bus.midFrame = false ∧
      (sampleAnnounce 2).station = s.align.station ∧ (sampleAnnounce 3).station ≠ s.align.station ∧
      readFrame [0x41] true = none := by decide +kernel

theorem witness_FramesHeard_unheard :
    let s := after .collision (busAt .sending 1 0)
    State.reset.pulse.pending = false ∧ State.reset.align.opState = .unconfigured ∧
      (busAt .sending 1 0).pulse.pending = false ∧ (busAt .sending 1 0).bus.access = .sending ∧
      s.align.opState ≠ .unconfigured ∧ s.bus.access ≠ .sending ∧ s.bus.midFrame = true := by decide +kernel

theorem witness_FramesHeard_pending :
    let s := setPeer 3 { heldPeer 0 0 with silence := 64 } (edgeAt 640 0 0 [])
    s.pulse.pending = true ∧ s.align.opState ≠ .unconfigured ∧ s.bus.access ≠ .sending ∧ s.bus.midFrame = false ∧
      (3 : Station) ≠ s.align.station ∧ (s.peers.records.get 3).state ≠ .absent ∧
      64 ≤ (s.peers.records.get 3).silence := by decide +kernel

/-- One grant outstanding and counted, its tag the only one; a run in flight with a redo entry of the Redo List, whose
target no tag carries; and two entries at both ends of eleven targets. -/
theorem witness_TrackingStaysConsistent :
    let s := trackingAt .committed true
    let e := { redoAt 409 405 0 with origin := { epoch := 404, index := 2 } }
    let r := { run410 with dlOrder := .redo e :: run410.dlOrder }
    let u := setRedo [e] { s with engine := { s.engine with run := some r } }
    s.OutstandingCounts ∧ s.TagsDistinct ∧ Instr.grantExpiry ≠ .runCompletion ∧
      (∃ t, exec .grantExpiry s = .next t) ∧ u.engine.run = some r ∧ u.pulse.pending = false ∧
      (∃ t, exec .runCompletion u = .next t) ∧ u.RunRedoFresh ∧ u.TagsDistinct ∧
      (∀ g ∈ u.tracking.ogt, g.tag.epoch ≠ r.target) ∧
      (∀ tag ∈
        r.redoOrigins ++ u.tracking.redo.map RedoEntry.origin ++
          (u.tracking.ogt.filterMap OgtEntry.origin).map RedoOrigin.tag,
        tag.epoch ≠ r.target) ∧
      (∀ i, (ctx u i).outstanding = (u.tracking.ogt.filter fun g => g.context == i).length) ∧
      (u.tracking.ogt.map OgtEntry.tag).Nodup ∧
      ([grantAt 1020 0 true 2, grantAt 6 31 true 2].map OgtEntry.tag).Nodup ∧
      ∀ g ∈ [grantAt 1020 0 true 2, grantAt 6 31 true 2], g.tag.index < 32 ∧ (g.tag.epoch - 1020).val ≤ 10 := by
  unfold State.OutstandingCounts State.TagsDistinct
  refine ⟨by decide +kernel, by decide +kernel, by decide +kernel, ⟨_, rfl⟩, rfl, rfl, ⟨_, rfl⟩, ?_, ?_⟩
  · intro r h
    cases h
    decide +kernel
  · decide +kernel

/-! ### The laws: OPERATING in the tests meets each one, and a step from it answers a next state -/

/-- The part the laws are met in, with one command waiting. -/
def lawful : State := { at100 .operating Params.reset with pending := [.epochPulse 4000000 []] }

theorem witness_step : ∃ t, step lawful = .next t := ⟨_, rfl⟩

theorem witness_StepKeepsLinesFollowing : lawful.LinesFollow := by
  unfold State.LinesFollow; decide +kernel

theorem witness_StepKeepsBounds :
    lawful.StoresBounded ∧ lawful.CountersBounded ∧ lawful.FiguresBounded ∧ lawful.AttachedBounded := by
  unfold State.StoresBounded State.CountersBounded State.FiguresBounded State.AttachedBounded
  decide +kernel

theorem witness_StepKeepsAllowanceBounded : lawful.AllowanceBounded :=
  ⟨by decide +kernel, fun a h => absurd h (by show none ≠ some a; simp)⟩

theorem witness_StepKeepsOperatingLaws :
    lawful.PlansOnlyWhenOperating ∧ lawful.EdgeOnlyWhenOperating ∧ lawful.SnapshotDistinct := by
  refine ⟨?_, ?_, fun r h => by cases h⟩
  · unfold State.PlansOnlyWhenOperating; decide +kernel
  · unfold State.EdgeOnlyWhenOperating; decide +kernel

theorem witness_StepKeepsOwnPeerAbsent : lawful.OwnPeerAbsent := by
  unfold State.OwnPeerAbsent; decide +kernel

theorem witness_StepKeepsRingPlaced : (trackingAt .sent false).RingPlaced := ring_placed

/-- A Redo List of three entries in order at epoch 100, with a command waiting. -/
theorem witness_StepKeepsRedoOrdered :
    let s := setRedo [redoAt 101 97 0, redoAt 104 100 0, redoAt 104 100 1] lawful
    s.RedoEpochsNear ∧ s.RedoOrdered ∧ ∃ t, step s = .next t := by
  refine ⟨⟨?_, ?_, ?_⟩, ?_, ⟨_, rfl⟩⟩
  · unfold State.Near; decide +kernel
  · intro g h; cases h
  · decide +kernel
  · unfold State.RedoOrdered; decide +kernel

end Sys2Proof.Tests
end

section
/-!
PROOFS. Subscriber contexts: the answers to QUERY and STATUS_REQ (R26, R170) and the decision of RELEASE (R16, R17).
-/
namespace Sys2Proof

/-- The records of a table as a list, each at its position. -/
theorem Table.getElem?_map_list {α β : Type} {n : Nat} (t : Table α n) (f : α → β) (i : Fin n) :
    (t.list.map f)[i.val]? = some (f (t.get i)) := by
  have hi : i.val < t.list.length := by rw [t.size]; exact i.isLt
  simp [Table.get, hi]

end Sys2Proof

namespace Sys2Proof.Machine

/-! ## The hand-over of a record that stands at the head -/

/-- A record that is handed on reaches its owner, on the state without it in the FIFO (R162). -/
theorem handOver_of_hands {r : Record} {rest : List Record} {s : State} (owner : State → State)
    (hr : outOfRange r = false) (h : s.Hands (clampRecord r) rest) : handOver r owner s = owner (setFifo rest s) := by
  obtain ⟨hpending, hhead, hheld⟩ := h
  exact handOver_head owner hpending hr hhead (by simpa using hheld)

/-- The FIFO is no matter of a context. -/
@[simp] theorem ctx_setFifo (l : List Record) (s : State) (i : Index) : ctx (setFifo l s) i = ctx s i := rfl

/-! ## The parts of a STATUS reply (R170) -/

/-- Adding a sub-band adds its own position and no other. -/
theorem getLsbD_withBand (u : SubBands) (c : Nat) {b : Nat} (hb : b < 24) :
    (withBand u c).getLsbD b = (u.getLsbD b || c == b) := by
  have hbit : (1#24 <<< c).getLsbD b = (c == b) := by
    have hplace : (c ≤ b ∧ b - c = 0) ↔ c = b := by omega
    rw [Bool.eq_iff_iff]
    simpa [hb] using hplace
  simp [withBand, hbit]

/-- The sub-bands of a list of hold-downs, added one after another to a set. -/
theorem getLsbD_foldl_withBand (l : List HoldDown) (u : SubBands) {b : Nat} (hb : b < 24) :
    (l.foldl (fun u h => withBand u h.band) u).getLsbD b = (u.getLsbD b || l.any fun h => h.band == b) := by
  induction l generalizing u with
  | nil => simp
  | cons x xs ih => rw [List.foldl_cons, ih, getLsbD_withBand u x.band hb, List.any_cons, Bool.or_assoc]

/-- The set of sub-bands under hold-down holds exactly the bands of the hold-downs. -/
theorem getLsbD_heldDownSet (l : List HoldDown) {b : Nat} (hb : b < 24) :
    (heldDownSet l).getLsbD b = l.any fun h => h.band == b := by
  simp [heldDownSet, getLsbD_foldl_withBand l 0#24 hb]

/-- The reply does not see the FIFO. -/
@[simp] theorem statusOf_setFifo (l : List Record) (s : State) : statusOf (setFifo l s) = statusOf s := rfl

/-- The owner's work on STATUS_REQ: the reply, and with the option the counters and the remainder at 0 (R170). -/
theorem takeStatusReq_eq (zero : Bool) (s : State) :
    takeStatusReq zero s =
      if zero then { reply (.status (statusOf s)) s with events := s.events.zeroed }
      else reply (.status (statusOf s)) s := rfl

/-- A QUERY at the head is answered by the SCT. -/
theorem exec_query_head {i : Index} {rest : List Record} {s : State} (h : s.Hands (.query i) rest) :
    exec (.query i) s = .next (takeQuery i (setFifo rest s)) :=
  congrArg Host.Outcome.next (handOver_of_hands (r := .query i) (takeQuery i) rfl h)

/-- A STATUS_REQ at the head is answered by the Event Unit. -/
theorem exec_statusReq_head {zero : Bool} {rest : List Record} {s : State} (h : s.Hands (.statusReq zero) rest) :
    exec (.statusReq zero) s = .next (takeStatusReq zero (setFifo rest s)) :=
  congrArg Host.Outcome.next (handOver_of_hands (r := .statusReq zero) (takeStatusReq zero) rfl h)

/-- Settles O7: both records stand at the head and are handed to their owners, and each item of the reply is read off
`statusOf`, the hold-downs as a set and the peers by station. -/
theorem repliesToQueryAndStatusRequest : Obligations.RepliesToQueryAndStatusRequest := by
  refine ⟨fun i rest s h => exec_query_head h, fun zero rest s h => ⟨statusOf s, ?_, ?_⟩⟩
  · rw [exec_statusReq_head h, takeStatusReq_eq, statusOf_setFifo]; rfl
  · refine ⟨rfl, rfl, rfl, rfl, rfl, rfl, rfl, rfl, rfl, rfl, rfl, rfl, rfl, rfl, rfl, rfl, rfl, rfl, ?_, ?_, rfl,
      rfl⟩
    · exact fun b hb => getLsbD_heldDownSet s.edge.holdDown hb
    · exact fun j => Table.getElem?_map_list s.peers.records Peer.summary j

/-! ## The decision of a RELEASE (R16, R17) -/

/-- A RELEASE at the head is decided by the state of the context it names. -/
theorem exec_release_head {i : Index} {rest : List Record} {s : State} (h : s.Hands (.release i) rest) :
    exec (.release i) s = .next (takeRelease i (setFifo rest s)) :=
  congrArg Host.Outcome.next (handOver_of_hands (r := .release i) (takeRelease i) rfl h)

/-- Before CONFIG a RELEASE is refused (R151). -/
theorem takeRelease_unconfigured {i : Index} {s : State} (h : s.align.opState = .unconfigured) :
    takeRelease i s = refuseRelease i .notReady s := by
  simp [takeRelease, h]

/-- A FREE context refuses a RELEASE (R16). -/
theorem takeRelease_free {i : Index} {s : State} (hop : s.align.opState ≠ .unconfigured)
    (h : (ctx s i).state = .free) : takeRelease i s = refuseRelease i .notAttached s := by
  simp [takeRelease, hop, h]

/-- A CLOSING context refuses a RELEASE (R16). -/
theorem takeRelease_closing {i : Index} {s : State} (hop : s.align.opState ≠ .unconfigured)
    (h : (ctx s i).state = .closing) : takeRelease i s = refuseRelease i .closing s := by
  simp [takeRelease, hop, h]

/-- An ADMITTING, ACTIVE or DORMANT context takes a RELEASE (R16). -/
theorem takeRelease_attached {i : Index} {s : State} (hop : s.align.opState ≠ .unconfigured)
    (h : (ctx s i).state.attached = true) : takeRelease i s = acceptRelease i s := by
  unfold takeRelease
  rw [if_neg hop]
  cases hstate : (ctx s i).state with
  | free | closing => simp [hstate, ContextState.attached] at h
  | admitting | active | dormant => rfl

/-- The later of two writes of one context stands. -/
@[simp] theorem setCtx_setCtx (i : Index) (c d : Context) (s : State) :
    setCtx i d (setCtx i c s) = setCtx i d s := by
  simp [setCtx]

/-- The redo entries of a context leave without a change of any context. -/
@[simp] theorem ctx_releaseRedo (i j : Index) (s : State) : ctx (releaseRedo i s) j = ctx s j :=
  ctx_congr (by simp) j

/-- With grants outstanding an accepted RELEASE leaves the context CLOSING with no backlog (R17). -/
theorem acceptRelease_outstanding {i : Index} {s : State} (h : 0 < (ctx s i).outstanding) :
    acceptRelease i s =
      setCtx i { ctx s i with dlBacklog := 0, ulBacklog := 0, state := .closing } (releaseRedo i s) := by
  simp [acceptRelease, h]

/-- With none outstanding an accepted RELEASE frees the context at once, with RELEASED code DONE (R17). -/
theorem acceptRelease_done {i : Index} {s : State} (h : (ctx s i).outstanding = 0) :
    acceptRelease i s =
      setEvent .released i.val .done (setCtx i (ctx s i).freed (releaseRedo i s)) := by
  simp [acceptRelease, h, releaseDone, enterFree, Context.freed]

/-- Writing a context after the redo entries have left is writing it into the table as it was. -/
theorem setCtx_releaseRedo (i : Index) (c : Context) (s : State) :
    setCtx i c (releaseRedo i s) = { releaseRedo i s with contexts := s.contexts.set i c } := by
  simp [setCtx]

/-- Settles O10, by the operating state and then by the state of the context. -/
theorem releaseIsDecided : Obligations.ReleaseIsDecided := by
  intro i rest s h bytes removed
  have hremoved : removed = releaseRedo i (setFifo rest s) := rfl
  rw [exec_release_head h, hremoved]
  refine ⟨fun hop => ?_, fun hop ha ho => ?_, fun hop ha ho => ?_, fun hop hs => ?_, fun hop hs => ?_⟩
  · rw [takeRelease_unconfigured (s := setFifo rest s) hop]; rfl
  · rw [takeRelease_attached (s := setFifo rest s) hop ha,
      acceptRelease_outstanding (s := setFifo rest s) ho, setCtx_releaseRedo]
    rfl
  · rw [takeRelease_attached (s := setFifo rest s) hop ha,
      acceptRelease_done (s := setFifo rest s) ho, setCtx_releaseRedo]
    rfl
  · rw [takeRelease_free (s := setFifo rest s) hop hs]; rfl
  · rw [takeRelease_closing (s := setFifo rest s) hop hs]; rfl

end Sys2Proof.Machine
end

section
/-!
PROOFS. The five reports on an attached context: the backlogs of DLDATA and ULBUF (R29, R30), the grades of CHANNEL
(R32), and the delay, margin and strikes of RANGE and LATE (R35, R36).
-/
namespace Sys2Proof.Machine

/-! ## A report reaches its context -/

/-- A report outside UNCONFIGURED that names an attached context is applied to it, on the state without the record in
the FIFO (R27, R162). -/
theorem handOver_report {r : Record} {i : Index} {rest : List Record} {s : State} (apply : State → State)
    (hr : outOfRange r = false) (h : s.Hands (clampRecord r) rest) (hop : s.align.opState ≠ .unconfigured)
    (ha : (ctx s i).state.attached = true) :
    handOver r (whenConfigured r (applyReport i apply)) s = apply (setFifo rest s) := by
  have happlied : applyReport i apply (setFifo rest s) = apply (setFifo rest s) := if_pos ha
  rw [handOver_of_hands _ hr h, ← happlied]
  exact if_neg hop

/-! ## What a report makes of the state and the counts (R12, R13, R15) -/

/-- A report that touches a context makes it ACTIVE exactly from DORMANT and when it wakes; the idle count becomes 0
there and in ACTIVE (R13, R15). -/
theorem Context.touched_eq (c : Context) (wakes : Bool) :
    c.touched wakes =
      { c with
        state := if c.state = .dormant ∧ wakes = true then .active else c.state
        idleCount := if c.state = .active ∨ c.state = .dormant ∧ wakes = true then 0 else c.idleCount } := by
  cases c with
  | mk state =>
    cases state with
    | free | admitting | active | closing => simp [Context.touched]
    | dormant => cases wakes <;> simp [Context.touched]

/-- A report that always wakes leaves only the idle count of an ADMITTING context as it is. -/
theorem Context.touched_waking {c : Context} (ha : c.state.attached = true) :
    c.touched true =
      { c with
        state := if c.state = .dormant then .active else c.state
        idleCount := if c.state = .admitting then c.idleCount else 0 } := by
  rw [Context.touched_eq]
  cases hstate : c.state with
  | free | closing => simp [hstate, ContextState.attached] at ha
  | admitting | active | dormant => simp

/-- CHANNEL makes a context ACTIVE exactly from ADMITTING and with a downlink grade of 1 or more, with both counts at
0; in ACTIVE it clears the idle count alone (R12, R13, R32). -/
theorem Context.regraded_eq (c : Context) (dlGrade ulGrade : Nat) :
    c.regraded dlGrade ulGrade =
      { c with
        dlGrade := dlGrade
        ulGrade := ulGrade
        state := if c.state = .admitting ∧ 1 ≤ dlGrade then .active else c.state
        idleCount := if c.state = .active ∨ c.state = .admitting ∧ 1 ≤ dlGrade then 0 else c.idleCount
        admitCount := if c.state = .admitting ∧ 1 ≤ dlGrade then 0 else c.admitCount } := by
  cases c with
  | mk state =>
    cases state with
    | free | active | dormant | closing => simp [Context.regraded]
    | admitting => by_cases hgrade : 1 ≤ dlGrade <;> simp [Context.regraded, hgrade]

/-! ## The five reports at the head of the FIFO -/

section
variable {i : Index} {rest : List Record} {s : State}

/-- DLDATA at the head adds its bytes to the context (R29). -/
theorem exec_dlData_head {bytes : Nat} (h : s.Hands (clampRecord (.dlData i bytes)) rest)
    (hop : s.align.opState ≠ .unconfigured) (ha : (ctx s i).state.attached = true) :
    exec (.dlData i bytes) s = .next (addDlData i (bytes % 2 ^ 24) (setFifo rest s)) :=
  congrArg Host.Outcome.next (handOver_report _ rfl h hop ha)

/-- ULBUF at the head replaces the uplink backlog of the context (R30). -/
theorem exec_ulBuf_head {bytes : Nat} (h : s.Hands (clampRecord (.ulBuf i bytes)) rest)
    (hop : s.align.opState ≠ .unconfigured) (ha : (ctx s i).state.attached = true) :
    exec (.ulBuf i bytes) s = .next (writeUlBuf i (bytes % 2 ^ 24) (setFifo rest s)) :=
  congrArg Host.Outcome.next (handOver_report _ rfl h hop ha)

/-- CHANNEL with both grades in range at the head writes them (R32). -/
theorem exec_channel_head {dlGrade ulGrade : Nat} (hdl : dlGrade ≤ 15) (hul : ulGrade ≤ 15)
    (h : s.Hands (.channel i dlGrade ulGrade) rest) (hop : s.align.opState ≠ .unconfigured)
    (ha : (ctx s i).state.attached = true) :
    exec (.channel i dlGrade ulGrade) s = .next (writeGrades i dlGrade ulGrade (setFifo rest s)) := by
  have hrange : outOfRange (.channel i dlGrade ulGrade) = false := by simp [outOfRange, hdl, hul]
  exact congrArg Host.Outcome.next (handOver_report _ hrange h hop ha)

/-- RANGE at the head writes the delay, held at 1,000 (R35, R160). -/
theorem exec_range_head {rtd : Nat} (h : s.Hands (clampRecord (.range i rtd)) rest)
    (hop : s.align.opState ≠ .unconfigured) (ha : (ctx s i).state.attached = true) :
    exec (.range i rtd) s = .next (writeRange i (min rtd 1000) (setFifo rest s)) :=
  congrArg Host.Outcome.next (handOver_report _ rfl h hop ha)

/-- LATE at the head counts the excess, held at 255 (R36, R160). -/
theorem exec_late_head {excess : Nat} (h : s.Hands (clampRecord (.late i excess)) rest)
    (hop : s.align.opState ≠ .unconfigured) (ha : (ctx s i).state.attached = true) :
    exec (.late i excess) s = .next (countLate i (min excess 255) (setFifo rest s)) :=
  congrArg Host.Outcome.next (handOver_report _ rfl h hop ha)

end

/-! ## The obligations -/

/-- Settles O12: each record is applied to its context at the head, and `Context.touched` is read as what it does to
the state and the idle count. -/
theorem backlogReports : Obligations.BacklogReports := by
  refine ⟨fun i bytes rest s h hop ha => ?_, fun i bytes rest s h hop ha => ?_⟩
  · rw [exec_dlData_head h hop ha, addDlData, Context.touched_waking (by exact ha)]
    rfl
  · rw [exec_ulBuf_head h hop ha, writeUlBuf, Context.touched_eq]
    simp only [decide_eq_true_eq]
    rfl

/-- Settles O13: each record is applied to its context at the head; RANGE and LATE then derive the bar in the same
act. -/
theorem channelRangeAndLateReports : Obligations.ChannelRangeAndLateReports := by
  refine ⟨fun i dlGrade ulGrade rest s hdl hul h hop ha => ?_, fun i rtd rest s h hop ha => exec_range_head h hop ha,
    fun i excess rest s h hop ha => exec_late_head h hop ha⟩
  rw [exec_channel_head hdl hul h hop ha, writeGrades, Context.regraded_eq]
  rfl

end Sys2Proof.Machine
end

section
/-!
PROOFS. The requested floor (R44): FLOOR writes it, hard reset clears it, every other command keeps it, and every
new-data candidate of a run stands above it.
-/
namespace Sys2Proof.Machine

open Sys2Proof

/-! ## The Allocation Engine's acts that replace the run or the carry list keep the requested floor -/

@[simp] theorem completeRun_requestedFloor (r : Run) (s : State) :
    (completeRun r s).engine.requestedFloor = s.engine.requestedFloor := by
  simp [completeRun, handFigures, consumeRedo, enterBatch]

@[simp] theorem finishRun_requestedFloor (s : State) :
    (finishRun s).engine.requestedFloor = s.engine.requestedFloor := by
  unfold finishRun
  split
  · split
    · exact completeRun_requestedFloor _ s
    · rfl
  · rfl

@[simp] theorem holdIfOperating_requestedFloor (s : State) :
    (holdIfOperating s).engine.requestedFloor = s.engine.requestedFloor := by
  unfold holdIfOperating
  split
  · rw [(enterHolding_writes s).1]
  · rfl

@[simp] theorem markEffect_requestedFloor (p : Epoch) (s : State) :
    (markEffect p s).engine.requestedFloor = s.engine.requestedFloor := by
  unfold markEffect
  split
  · simp [recoverMarker]
  · split
    · simp [leaveHolding]
    · simp
  · rfl
  · rfl

@[simp] theorem startRun_requestedFloor (s : State) :
    (startRun s).engine.requestedFloor = s.engine.requestedFloor := by
  unfold startRun
  dsimp only
  split
  · split <;> simp [beginRun]
  · rfl

@[simp] theorem acceptRealign_requestedFloor (s : State) :
    (acceptRealign s).engine.requestedFloor = s.engine.requestedFloor := by
  simp [acceptRealign]

/-! ## A pulse keeps the requested floor -/

@[simp] theorem takeEntry_requestedFloor (s : State) :
    (takeEntry s).engine.requestedFloor = s.engine.requestedFloor := by
  unfold takeEntry
  split <;> simp

@[simp] theorem takeStart_requestedFloor (s : State) :
    (takeStart s).engine.requestedFloor = s.engine.requestedFloor := by
  unfold takeStart
  split <;> simp

/-- A frame on the line keeps the Allocation Engine when the one that takes it does (R141). -/
theorem whenHearing_engine {hear : State → State} (h : ∀ t, (hear t).engine = t.engine) (s : State) :
    (whenHearing hear s).engine = s.engine := by
  unfold whenHearing
  split
  · split
    · simp
    · simp [h]
  · rfl

/-- Of the parts of a pulse's work, the entry to HOLDING and the start of a run write the engine; the others leave it
whole. -/
theorem takeTask_requestedFloor (s : State) (t : PulseTask) :
    (takeTask s t).engine.requestedFloor = s.engine.requestedFloor := by
  cases t with
  | entry => exact takeEntry_requestedFloor s
  | start => exact takeStart_requestedFloor s
  | announce f acrossPulse => simp [takeTask, whenHearing_engine]
  | ability f acrossPulse => simp [takeTask, whenHearing_engine]
  | decide | counts | timeouts | dormancy | ageing | stale | absent | batchVoid | grantExpiry | redoDrop | holdDown
  | update => simp [takeTask]

@[simp] theorem takeTasks_requestedFloor (l : List PulseTask) (s : State) :
    (takeTasks l s).engine.requestedFloor = s.engine.requestedFloor :=
  foldl_keep (fun t : State => t.engine.requestedFloor) takeTask takeTask_requestedFloor l s

@[simp] theorem finishPulse_requestedFloor (s : State) :
    (finishPulse s).engine.requestedFloor = s.engine.requestedFloor := by
  unfold finishPulse
  split <;> simp

@[simp] theorem markArrives_requestedFloor (interval : Nat) (s : State) :
    (markArrives interval s).engine.requestedFloor = s.engine.requestedFloor := by
  unfold markArrives
  dsimp only
  split <;> simp

@[simp] theorem loseEpoch_requestedFloor (s : State) :
    (loseEpoch s).engine.requestedFloor = s.engine.requestedFloor := by
  unfold loseEpoch
  split <;> simp

@[simp] theorem loseLink_requestedFloor (s : State) :
    (loseLink s).engine.requestedFloor = s.engine.requestedFloor := by
  unfold loseLink
  split <;> simp

/-! ## A record keeps the requested floor when its owner does -/

/-- The FIFO's work on a record leaves the requested floor to the record's owner (R161, R162). -/
theorem handOver_requestedFloor {owner : State → State}
    (h : ∀ t, (owner t).engine.requestedFloor = t.engine.requestedFloor) (r : Record) (s : State) :
    (handOver r owner s).engine.requestedFloor = s.engine.requestedFloor := by
  unfold handOver
  dsimp only
  split
  · simp
  · split
    · split <;> simp [h]
    · split
      · split <;> simp [h]
      · simp

/-- A refusal in UNCONFIGURED keeps the requested floor, so a record does when its owner does (R151). -/
theorem handOver_whenConfigured_requestedFloor {owner : State → State}
    (h : ∀ t, (owner t).engine.requestedFloor = t.engine.requestedFloor) (r : Record) (s : State) :
    (handOver r (whenConfigured r owner) s).engine.requestedFloor = s.engine.requestedFloor := by
  refine handOver_requestedFloor (fun t => ?_) r s
  unfold whenConfigured
  split
  · simp
  · exact h t

/-- A report keeps the requested floor when its effect on an attached context does: a stray one is counted (R28). -/
theorem handOver_report_requestedFloor {apply : State → State}
    (h : ∀ t, (apply t).engine.requestedFloor = t.engine.requestedFloor) (r : Record) (i : Index) (s : State) :
    (handOver r (whenConfigured r (applyReport i apply)) s).engine.requestedFloor = s.engine.requestedFloor := by
  refine handOver_whenConfigured_requestedFloor (fun t => ?_) r s
  unfold applyReport
  split
  · exact h t
  · simp

/-! ## The commands -/

/-- Hard reset leaves the requested floor at 0 (R58, R149). -/
theorem exec_hardReset_requestedFloor {station : Station} {s t : State} (h : exec (.hardReset station) s = .next t) :
    t.engine.requestedFloor = 0 := by
  cases h
  rfl

/-- Every command but hard reset and FLOOR keeps the requested floor (R44). -/
theorem exec_keeps_requestedFloor {c : Instr} {s t : State} (h : exec c s = .next t)
    (hreset : ∀ station, c ≠ .hardReset station) (hfloor : ∀ requested, c ≠ .floor requested) :
    t.engine.requestedFloor = s.engine.requestedFloor := by
  cases c with
  | hardReset station => exact absurd rfl (hreset station)
  | floor requested => exact absurd rfl (hfloor requested)
  | config | attach | release | query | statusReq =>
    cases h
    exact handOver_requestedFloor (by simp) _ _
  | realign | feedback | receipt | clear =>
    cases h
    exact handOver_whenConfigured_requestedFloor (by simp) _ _
  | dlData | ulBuf | channel | range | late =>
    cases h
    exact handOver_report_requestedFloor (by simp) _ _ _
  | epochPulse | markPulse =>
    cases h
    dsimp only
    split <;> simp
  | announceReceived | abilityReceived | busCrc =>
    cases h
    simp [whenHearing_engine]
  | batchVoid | grantExpiry | redoDrop | attachTimeout | goDormant | updateEvent | holdDownExpiry | peerStale
  | peerAbsent | recordReceived | idlePatternReceived | linkLoss | recordSent | framingLost | epochLoss | runCompletion
  | busIdleDetected | deferralExpired | deferralInterrupted | frameSent | collision | busJabber =>
    cases h
    simp

/-- A FLOOR at the head of the FIFO is refused or writes the requested floor (R44). -/
theorem exec_floor_head {requested : Nat} {rest : List Record} {s : State}
    (h : s.Hands (clampRecord (.floor requested)) rest) :
    exec (.floor requested) s =
      .next (whenConfigured (.floor requested) (setRequestedFloor (min requested 3)) (setFifo rest s)) :=
  congrArg Host.Outcome.next (handOver_of_hands (r := .floor requested) _ rfl h)

/-! ## The candidates -/

/-- Ranking an entry into a list adds that entry and no other. -/
theorem mem_insertRanked {x c : Candidate} {l : List Candidate} : x ∈ insertRanked c l ↔ x = c ∨ x ∈ l := by
  induction l with
  | nil => simp [insertRanked]
  | cons y ys ih =>
    unfold insertRanked
    split
    · simp
    · simp only [List.mem_cons, ih]
      exact or_left_comm

/-- Ranking a list changes the order of its entries alone. -/
theorem mem_foldr_insertRanked {x : Candidate} {l : List Candidate} : x ∈ l.foldr insertRanked [] ↔ x ∈ l := by
  induction l with
  | nil => rfl
  | cons y ys ih => rw [List.foldr_cons, mem_insertRanked, ih, List.mem_cons]

/-- The ranked candidates of a direction are the entries of the snapshot's contexts that meet R42. -/
theorem mem_rankedCandidates {x : Candidate} {sn : Snapshot} {target : Epoch} {d : Direction} :
    x ∈ rankedCandidates sn target d ↔
      ∃ c ∈ sn.contexts, isCandidate sn.effectiveFloor d c = true ∧ candidateOf sn target d c = x := by
  simp only [rankedCandidates, mem_foldr_insertRanked, List.mem_map, List.mem_filter, and_assoc]

/-- A candidate's class is above the floor it was tested against (R42). -/
theorem isCandidate_floor_lt {floor : Nat} {d : Direction} {c : SnapContext} (h : isCandidate floor d c = true) :
    floor < c.cls := by
  simp only [isCandidate, Bool.and_eq_true, decide_eq_true_eq] at h
  obtain ⟨⟨_, hfloor⟩, _⟩ := h
  exact hfloor

/-- The requested floor is at most the run's effective floor (R45). -/
theorem Snapshot.requestedFloor_le_effectiveFloor (sn : Snapshot) : sn.requestedFloor ≤ sn.effectiveFloor :=
  Nat.le_max_right _ _

/-- Settles O19: a FLOOR at the head is decided by the operating state, the other commands are taken one by one, and a
candidate's class is above the effective floor, which the requested floor does not exceed. -/
theorem floorSetsRequestedFloor : Obligations.FloorSetsRequestedFloor := by
  refine ⟨fun requested rest s h => ⟨fun hop => ?_, fun hop => ?_⟩, fun c s t h => ⟨?_, ?_⟩, ?_⟩
  · rw [exec_floor_head h, whenConfigured, if_pos (by exact hop)]
    rfl
  · rw [exec_floor_head h, whenConfigured, if_neg (by exact hop)]
    rfl
  · rintro station rfl
    exact exec_hardReset_requestedFloor h
  · exact exec_keeps_requestedFloor h
  · intro sn target d x hx
    obtain ⟨c, -, hc, rfl⟩ := mem_rankedCandidates.mp hx
    exact sn.requestedFloor_le_effectiveFloor.trans_lt (isCandidate_floor_lt hc)

end Sys2Proof.Machine
end

section
/-!
PROOFS. Power allowance: the four steps of R112 and the bounds they keep.
-/
namespace Sys2Proof.Machine

section
variable {p : Params} {pPrev claims : Nat}

/-- Step 1 of R112: the difference taken as 0 when it is negative is the subtraction of the natural numbers. -/
theorem rawAllowance_eq_natSub (budget claims : Nat) :
    max 0 ((budget : Int) - claims) = ((budget - claims : Nat) : Int) := by
  rw [← Int.toNat_sub, Int.ofNat_toNat, max_comm]

/-- The four steps of R112 in integer arithmetic. -/
theorem intCast_allowanceOf (p : Params) (pPrev claims : Nat) :
    (allowanceOf p pPrev claims : Int) =
      min (max (min (max 0 ((p.budget : Int) - claims)) (pPrev + p.rampStep)) p.floorShare) p.budget := by
  rw [rawAllowance_eq_natSub, allowanceOf]
  push_cast
  rfl

/-- Step 4 never undoes step 3: with Φ not above B the first three steps already stay at or below B (R112). -/
theorem allowanceOf_of_floorShare_le (h : p.floorShare ≤ p.budget) :
    allowanceOf p pPrev claims = max (min (p.budget - claims) (pPrev + p.rampStep)) p.floorShare :=
  have hraw : min (p.budget - claims) (pPrev + p.rampStep) ≤ p.budget := (min_le_left _ _).trans (Nat.sub_le _ _)
  min_eq_left (max_le hraw h)

/-- Step 3 keeps the allowance at Φ or above (R112). -/
theorem floorShare_le_allowanceOf (h : p.floorShare ≤ p.budget) : p.floorShare ≤ allowanceOf p pPrev claims :=
  le_min (le_max_right _ _) h

/-- Step 4 keeps the allowance at B or below (R112). -/
theorem allowanceOf_le_budget : allowanceOf p pPrev claims ≤ p.budget := min_le_right _ _

/-- Peers that claim B or more leave the floor share alone (R112). -/
theorem allowanceOf_of_budget_le_claims (h : p.floorShare ≤ p.budget) (hclaims : p.budget ≤ claims) :
    allowanceOf p pPrev claims = p.floorShare := by
  rw [allowanceOf_of_floorShare_le h, Nat.sub_eq_zero_of_le hclaims, Nat.zero_min, Nat.zero_max]

/-- While the peers leave more than the ramp reaches, the ramp decides (R112). -/
theorem allowanceOf_of_ramp_le_raw (h : p.floorShare ≤ p.budget) (hramp : pPrev + p.rampStep ≤ p.budget - claims) :
    allowanceOf p pPrev claims = max (pPrev + p.rampStep) p.floorShare := by
  rw [allowanceOf_of_floorShare_le h, min_eq_right hramp]

/-- From P_prev 0 the ramp reaches one ramp step (R112). -/
theorem allowanceOf_zero_pPrev (h : p.floorShare ≤ p.budget) :
    allowanceOf p 0 claims = max p.floorShare (min (p.budget - claims) p.rampStep) := by
  rw [allowanceOf_of_floorShare_le h, Nat.zero_add, max_comm]

/-- With no claims and the ramp reaching B, the allowance is the whole budget (R112). -/
theorem allowanceOf_zero_claims (h : p.floorShare ≤ p.budget) (hramp : p.budget ≤ pPrev + p.rampStep) :
    allowanceOf p pPrev 0 = p.budget := by
  rw [allowanceOf_of_floorShare_le h, Nat.sub_zero, min_eq_left hramp, max_eq_left h]

end

/-- Settles O46: the four steps are the model's own with step 1 in integer arithmetic, and with Φ not above B each
consequence is the case of the first three steps that its premise picks. -/
theorem allowanceLiesBetweenFloorShareAndBudget : Obligations.AllowanceLiesBetweenFloorShareAndBudget := by
  intro p pPrev claims raw result
  have hraw : raw = ((p.budget - claims : Nat) : Int) := rawAllowance_eq_natSub p.budget claims
  refine ⟨intCast_allowanceOf p pPrev claims, fun h => ?_, fun hprev hstep => Nat.add_le_add hprev hstep⟩
  refine ⟨floorShare_le_allowanceOf h, allowanceOf_le_budget, allowanceOf_of_budget_le_claims h,
    fun hramp => ?_, ?_, ?_⟩
  · rw [hraw] at hramp
    exact allowanceOf_of_ramp_le_raw h (by exact_mod_cast hramp)
  · rintro rfl
    rw [hraw]
    exact_mod_cast allowanceOf_zero_pPrev h
  · rintro rfl
    exact allowanceOf_zero_claims h

end Sys2Proof.Machine
end


section
/-!
PROOFS. The tables: their records as a list, the positions with a property and their number.
-/
namespace Sys2Proof

/-- A table's records as a list, position by position. -/
theorem Table.list_eq_map {α : Type} {n : Nat} (t : Table α n) : t.list = (List.finRange n).map t.get := by
  refine List.ext_getElem (by simp [t.size]) fun i _ _ => ?_
  simp [Table.get]

/-- The positions with a property, in ascending order. -/
theorem Table.positions_eq {α : Type} {n : Nat} (t : Table α n) (p : α → Bool) :
    t.positions p = (List.finRange n).filter fun i => p (t.get i) := by
  have zipped : (List.finRange n).zip t.list = (List.finRange n).map fun i => (i, t.get i) := by
    rw [t.list_eq_map]
    exact (congrArg (fun l : List (Fin n) => l.zip ((List.finRange n).map t.get)) (List.map_id _).symm).trans List.zip_map'
  rw [Table.positions, zipped, List.filterMap_map, ← List.filterMap_eq_filter]
  exact List.filterMap_congr fun i _ => by simp [Option.guard]

theorem Table.positions_nodup {α : Type} {n : Nat} (t : Table α n) (p : α → Bool) : (t.positions p).Nodup := by
  rw [t.positions_eq]
  exact (List.nodup_finRange n).filter _
theorem Table.count_eq_card {α : Type} {n : Nat} (t : Table α n) (p : α → Bool) :
    t.count p = (Finset.univ.filter fun i => p (t.get i) = true).card := by
  simp only [Table.count, t.list_eq_map, List.filter_map, List.length_map, Finset.card, Finset.filter, Fin.univ_def,
    Multiset.filter_coe, Multiset.coe_card]
  exact congrArg _ (List.filter_congr fun i _ => by simp)

end Sys2Proof
end


section
/-!
PROOFS. What a command can do, said once: the elementary acts of which every command is made, each with the condition
under which the part does it.  A law of the state that every act keeps is kept by every step.
-/
namespace Sys2Proof.Machine

/-! ## The acts -/

/-- The four figures of a context lie within the backlog's range (R55). -/
def Context.FiguresBounded (c : Context) : Prop :=
  c.dlBacklog ≤ Config.backlogMax ∧ c.ulBacklog ≤ Config.backlogMax ∧ c.avgDl ≤ Config.backlogMax ∧
    c.avgUl ≤ Config.backlogMax

/-- A context written by a report, a count or a derivation: it neither leaves nor enters FREE, does not enter ADMITTING,
keeps its outstanding grants and its figures in range. -/
structure Context.Touches (c d : Context) : Prop where
  free : d.state = .free ↔ c.state = .free
  admitting : d.state = .admitting → c.state = .admitting
  outstanding : d.outstanding = c.outstanding
  figures : c.FiguresBounded → d.FiguresBounded

/-- An elementary act of the part: a block writes what it owns, under the condition that the rules put on it.  The acts
on the tracking state stand as the operations that make them. -/
inductive Change : State → State → Prop
  | report {s t : State} (h : Reports s t)
      (remainder : s.events.remainder < Config.lostUnit → t.events.remainder < Config.lostUnit) : Change s t
  | work (s : State) (w : PulseWork) : Change s { s with pulse := w }
  | line (s : State) (l : LinkPort) (fifo : l.fifo = s.link.fifo) (ready : l.ready = s.link.ready)
      (queue : l.queue = s.link.queue) : Change s { s with link := l }
  | freeValue (s : State) (n : Nat) : Change s { s with freeValues := n }
  | fifo (s : State) (l : List Record)
      (room : s.link.fifo.length ≤ Config.fifoDepth → l.length ≤ Config.fifoDepth) : Change s (setFifo l s)
  | queue (s : State) (q : List OutRecord) (o : Option LinkOutput)
      (room : s.link.queue.length ≤ Config.outboundDepth → q.length ≤ Config.outboundDepth) :
      Change s { s with link := { s.link with queue := q, lastOut := o } }
  | bus (s : State) (b : BusPort) (generator : b.generator = s.bus.generator)
      (cutOff : s.bus.cutOff = true → b.cutOff = true) : Change s { s with bus := b }
  | events (s : State) (e : EventUnit)
      (settings : e.enables = s.events.enables ∧ e.levels = s.events.levels ∧ e.threshold = s.events.threshold)
      (alert : s.events.alert = s.events.alertLevel → e.alert = e.alertLevel)
      (counters : (∀ c, s.events.counters.get c ≤ Config.counterMax) → ∀ c, e.counters.get c ≤ Config.counterMax)
      (remainder : s.events.remainder < Config.lostUnit → e.remainder < Config.lostUnit) :
      Change s { s with events := e }
  | contexts (s : State) (t : Table Context 256) (touches : ∀ i, (ctx s i).Touches (t.get i)) :
      Change s { s with contexts := t }
  | attach (s : State) (i : Index) (ident cls weight rtd : Nat) (configured : s.align.opState ≠ .unconfigured)
      (free : (ctx s i).state = .free) (room : attachedCount s < s.config.maxSubscribers) :
      Change s (setCtx i ((ctx s i).attached ident cls weight rtd) s)
  | timeout (s : State) (i : Index) (admitting : (ctx s i).state = .admitting) : Change s (enterFree i s)
  | release (s : State) (i : Index) (attached : (ctx s i).state.attached = true) : Change s (acceptRelease i s)
  | expire (s : State) (tracking : tracks s = true) : Change s (expireGrants (now s) s)
  | void (s : State) (n e : Epoch) (tracking : tracks s = true) : Change s (voidBatch n e s)
  | drop (s : State) (n : Epoch) : Change s (dropDeadlines n s)
  | fail (s : State) (g : OgtEntry) (found : findGrant s g.tag = some g) : Change s (failEntry s g)
  | settle (s : State) (g : OgtEntry) (found : findGrant s g.tag = some g) :
      Change s (dropOutstanding g.context (removeGrant g.tag s))
  | commit (s : State) (e : Epoch) (target : (batchOf s e).target = some e) (sent : (batchOf s e).status = .sent) :
      Change s (commitBatch e s)
  | abort (s : State) (announce : Bool) : Change s (abortRun announce s)
  | hold (s : State) (operating : s.align.opState = .operating) (idle : s.engine.run = none) :
      Change s { s with edge := Edge.reset, align := { s.align with opState := .holding } }
  | empty (s : State) : Change s (emptyTracking s)
  | engine (s : State) (e : Engine) (run : e.run = s.engine.run ∨ e.run = none) : Change s { s with engine := e }
  | relisten (s : State) (configured : s.align.opState ≠ .unconfigured) (idle : s.engine.run = none)
      (ring : s.tracking.ring = Table.fill 16 BatchRecord.empty) (ogt : s.tracking.ogt = [])
      (redo : s.tracking.redo = []) :
      Change s
        { s with
          power := Power.reset, edge := Edge.reset, peers := s.peers.realigned, align := s.align.listeningEntry }
  | edge (s : State) (e : Edge)
      (ownSet : e.ownSet = s.edge.ownSet ∨ e.ownSet = 0#24 ∨ edgeCounts s = true) : Change s { s with edge := e }
  | start (s : State) (target : Epoch) (m : Mode) (operating : s.align.opState = .operating) :
      Change s (beginRun target m s)
  | power (s : State) (p : Power) (allowance : p.allowance = s.power.allowance) : Change s { s with power := p }
  | align (s : State) (a : Alignment) (station : a.station = s.align.station) (epoch : a.epoch = s.align.epoch)
      (opState : a.opState = s.align.opState ∧ (a.mode = s.align.mode ∨ s.align.opState = .listening) ∨
        (s.align.opState = .listening ∨ s.align.opState = .holding) ∧ a.opState = .operating) :
      Change s { s with align := a }
  | peers (s : State) (p : PeerTable)
      (own : s.OwnPeerAbsent → (p.records.get s.align.station).state = .absent) : Change s { s with peers := p }

/-- Acts one after another. -/
abbrev Changes : State → State → Prop := Relation.ReflTransGen Change

/-- A pulse's own acts besides: the epoch count moves on, and the deadlines are restated at a MARK. -/
inductive Arrival : State → State → Prop
  | change {s t : State} (h : Change s t) : Arrival s t
  | epoch (s : State) (e : Option Epoch) : Arrival s (setEpoch e s)
  | restate (s : State) (p : Epoch) : Arrival s (restateTracking p s)

/-- A pulse's acts one after another. -/
abbrev Arrivals : State → State → Prop := Relation.ReflTransGen Arrival

theorem Changes.arrivals {s t : State} (h : Changes s t) : Arrivals s t :=
  Relation.ReflTransGen.mono (fun _ _ => Arrival.change) _ _ h

/-- A fold of acts, with a condition that each keeps. -/
theorem foldl_changes {α : Type} {f : State → α → State} (p : State → Prop)
    (h : ∀ s a, p s → Changes s (f s a) ∧ p (f s a)) (l : List α) {s : State} (hs : p s) :
    Changes s (l.foldl f s) := by
  induction l generalizing s with
  | nil => exact .refl
  | cons a l ih => exact (h s a hs).1.trans (ih (h s a hs).2)

/-- A fold of acts. -/
theorem foldl_changes' {α : Type} {f : State → α → State} (h : ∀ s a, Changes s (f s a)) (l : List α) (s : State) :
    Changes s (l.foldl f s) :=
  foldl_changes (fun _ => True) (fun s a _ => ⟨h s a, trivial⟩) l trivial

/-! ## Reports, contexts and the frame due -/

theorem setEvent_changes (k : EventKind) (n : Nat) (c : Code) (s : State) : Changes s (setEvent k n c s) :=
  .single (.report (setEvent_reports k n c s) (by simp))

theorem advance_changes (c : Counter) (n : Nat) (s : State) : Changes s (advance c n s) :=
  .single (.report (advance_reports c n s) (by simp))

theorem discardMalformed_changes (n : Nat) (c : Code) (s : State) : Changes s (discardMalformed n c s) :=
  (advance_changes ..).trans (setEvent_changes ..)

theorem discardFrame_changes (s : State) : Changes s (discardFrame s) :=
  (advance_changes ..).trans (setEvent_changes ..)

/-- One context written. -/
theorem setCtx_changes {i : Index} {c : Context} {s : State} (h : (ctx s i).Touches c) : Changes s (setCtx i c s) :=
  .single (.contexts s _ fun j => by
    rw [Table.get_set]
    split
    · next hj => subst hj; exact h
    · exact ⟨Iff.rfl, id, rfl, id⟩)

theorem deriveBar_changes (i : Index) (s : State) : Changes s (deriveBar i s) := by
  have written (b : Bool) : Changes s (setCtx i { ctx s i with ulBarred := b } s) :=
    setCtx_changes ⟨Iff.rfl, id, rfl, id⟩
  unfold deriveBar
  dsimp only
  split
  · exact (written _).trans (setEvent_changes ..)
  · exact written _

theorem deriveAllBars_changes (s : State) : Changes s (deriveAllBars s) :=
  foldl_changes' (fun t i => deriveBar_changes i t) _ s

theorem countContexts_changes (s : State) : Changes s (countContexts s) := by
  refine .single (.contexts s _ fun i => ?_)
  rw [Table.get_mapWith]
  unfold countContext
  split <;> next h => exact ⟨by simp [ctx], by simp [ctx], rfl, id⟩

theorem timeoutContext_changes (i : Index) (s : State) : Changes s (timeoutContext i s) := by
  unfold timeoutContext
  split
  · next h =>
    simp only [timeoutDue, Bool.and_eq_true, beq_iff_eq] at h
    exact (Relation.ReflTransGen.single (.timeout s i h.1)).trans (setEvent_changes ..)
  · exact .refl

theorem dormantContext_changes (i : Index) (s : State) : Changes s (dormantContext i s) := by
  unfold dormantContext
  split
  · next h =>
    simp only [dormancyDue, Bool.and_eq_true, beq_iff_eq] at h
    exact setCtx_changes ⟨by simp [h.1], by simp, rfl, fun b => ⟨b.1, b.2.1, Nat.zero_le _, Nat.zero_le _⟩⟩
  · exact .refl

theorem frameDue_changes (f : BusFrame) (s : State) : Changes s (frameDue f s) := by
  unfold frameDue
  split
  · exact advance_changes ..
  · split <;> exact .single (.bus s _ rfl id)

theorem cutPlans_changes (s : State) : Changes s (cutPlans s) :=
  .single (.queue s _ _ fun h => (List.length_filter_le _ _).trans h)

/-! ## The epoch watch, the bus watch and the listening conditions -/

/-- A write of Alignment Control that leaves station, count, operating state and mode. -/
theorem align_changes {s : State} {a : Alignment} (station : a.station = s.align.station)
    (epoch : a.epoch = s.align.epoch) (opState : a.opState = s.align.opState) (mode : a.mode = s.align.mode) :
    Changes s { s with align := a } :=
  .single (.align s a station epoch (.inl ⟨opState, .inl mode⟩))

theorem setWatch_changes (w : WatchState) (s : State) : Changes s (setWatch w s) := align_changes rfl rfl rfl rfl

theorem setPeriod_changes (p : Period) (s : State) : Changes s (setPeriod p s) :=
  .trans (align_changes (a := { s.align with watch := .regular, period := some p }) rfl rfl rfl rfl)
    (deriveAllBars_changes _)

theorem judgeWatch_changes (interval : Nat) (s : State) : Changes s (judgeWatch interval s) := by
  unfold judgeWatch
  split
  · split
    · split
      · exact setPeriod_changes ..
      · exact setEvent_changes ..
    · exact align_changes rfl rfl rfl rfl
  · split
    · exact .refl
    · exact (setWatch_changes ..).trans (setEvent_changes ..)
  · split
    · exact setWatch_changes ..
    · exact setEvent_changes ..
  · exact setWatch_changes ..

theorem judgeBus_changes (s : State) : Changes s (judgeBus s) := by
  have judged (b : BusPort) (hg : b.generator = s.bus.generator) (hc : b.cutOff = s.bus.cutOff) :
      Changes s { s with bus := b } := .single (.bus s b hg fun h => hc.trans h)
  unfold judgeBus
  dsimp only
  split
  · refine .trans ?_ (setEvent_changes ..)
    exact judged _ rfl rfl
  · exact judged _ rfl rfl

theorem countEdge_changes (s : State) : Changes s (countEdge s) := by
  unfold countEdge
  split
  · exact .single (.edge s _ (.inl rfl))
  · exact .refl

theorem listenPulse_changes (s : State) : Changes s (listenPulse s) := by
  unfold listenPulse
  split
  · refine .trans ?_ (frameDue_changes ..)
    exact align_changes rfl rfl rfl rfl
  · exact .refl

/-- One record of the Peer Table written; the own one, if ABSENT, stays so. -/
theorem setPeer_changes {j : Station} {p : Peer} {s : State}
    (h : j = s.align.station → (s.peers.records.get j).state = .absent → p.state = .absent) :
    Changes s (setPeer j p s) :=
  .single (.peers s _ fun own => by
    rw [Table.get_set]
    split
    · next hj => exact h hj.symm (hj ▸ own)
    · exact own)

theorem writePeer_changes {j : Station} {p : Peer} {s : State}
    (h : j = s.align.station → (s.peers.records.get j).state = .absent → p.state = .absent) :
    Changes s (writePeer j p s) := by
  unfold writePeer
  split
  · exact (setPeer_changes h).trans (setEvent_changes ..)
  · exact setPeer_changes h

theorem excludePeer_changes (j : Station) (s : State) : Changes s (excludePeer s j) :=
  writePeer_changes fun _ h => h

theorem foldl_excludePeer_align (l : List Station) (s : State) : (l.foldl excludePeer s).align = s.align :=
  foldl_keep State.align excludePeer (fun t j => (excludePeer_keeps j t).2.2.2.2.2.2.2.1) l s

/-- The part leaves LISTENING with its mode decided. -/
theorem operate_changes {s : State} (h : s.align.opState = .listening) :
    Changes s
      { s with align := { s.align with opState := .operating }, edge := { s.edge with counter := 0 } } :=
  .trans (.single (.align s { s.align with opState := .operating } rfl rfl (.inr ⟨.inl h, rfl⟩)))
    (.single (.edge _ _ (.inl rfl)))

theorem testListening_changes (s : State) : Changes s (testListening s) := by
  unfold testListening
  split
  · next h =>
    simp only [Bool.and_eq_true, beq_iff_eq] at h
    have listening := congrArg Alignment.opState (foldl_excludePeer_align (decideMode s.config s.peers).excluded s)
    rw [h.1] at listening
    unfold enterOperating
    dsimp only
    refine .trans ?_ (operate_changes (by simpa using listening))
    refine .trans ?_ (setEvent_changes ..)
    refine .trans ?_ (.single (.align _ _ (by rfl) (by rfl) (by exact .inl ⟨rfl, .inr listening⟩)))
    exact foldl_changes' (fun t j => excludePeer_changes j t) _ s
  · exact .refl

/-! ## The end of a run and the entry to HOLDING -/

theorem voidAllSent_changes {s : State} (h : tracks s = true) : Changes s (voidAllSent s) :=
  foldl_changes (fun t => tracks t = true)
    (fun t e ht => ⟨.single (.void t _ e ht), by simpa [tracks] using ht⟩) _ h

theorem enterHolding_changes {s : State} (h : s.align.opState = .operating) : Changes s (enterHolding s) := by
  have aborted : tracks (abortRun false s) = true := by simp [tracks, h]
  refine .trans ?_ (cutPlans_changes _)
  refine .trans ?_ (frameDue_changes ..)
  refine .trans ?_ (.single (.hold (emptyCarry (setPrev 0 (voidAllSent (abortRun false s)))) (by simp [h]) (by simp)))
  refine .trans ?_ (.single (.engine _ _ (.inl rfl)))
  refine .trans ?_ (.single (.power _ _ rfl))
  exact .trans (.single (.abort s false)) (voidAllSent_changes aborted)

theorem holdIfOperating_changes (s : State) : Changes s (holdIfOperating s) := by
  unfold holdIfOperating
  split
  · next h => exact enterHolding_changes (by simpa using h)
  · exact .refl

theorem startRun_changes (s : State) : Changes s (startRun s) := by
  unfold startRun
  split
  · next h =>
    refine (Relation.ReflTransGen.single (.abort s true)).trans ?_
    dsimp only
    split
    · exact .single (.start _ _ _ (by simpa using h))
    · exact .refl
  · exact .refl

/-! ## The parts of a pulse's work -/

theorem stalePeer_changes (j : Station) (s : State) : Changes s (stalePeer j s) := by
  unfold stalePeer
  dsimp only
  split
  · next h => exact setPeer_changes fun _ ha => by simp [Peer.staleDue, ha] at h
  · exact .refl

theorem absentPeer_changes (j : Station) (s : State) : Changes s (absentPeer j s) := by
  unfold absentPeer
  dsimp only
  split
  · refine .trans ?_ (setEvent_changes ..)
    refine .trans (setPeer_changes (j := j) (p := (s.peers.records.get j).emptied) fun _ _ => rfl) ?_
    exact .single (.peers _ _ id)
  · exact .refl

theorem agePeers_changes (s : State) : Changes s (agePeers s) :=
  .single (.peers s _ fun h => by
    have : (s.peers.records.get s.align.station).state = .absent := h
    simp [Peer.aged, this])

theorem takeFrame_changes {j : Station} (changed : Bool) (p : Peer) {s : State} (h : j ≠ s.align.station) :
    Changes s (takeFrame j changed p s) := by
  unfold takeFrame unsettle writeHeard
  dsimp only
  have written : Changes s (writePeer j p s) := writePeer_changes fun hj => absurd hj h
  have heard : ∀ b : Bool, Changes s (if b then setEvent .peerMisaligned j.val .none (writePeer j p s)
      else writePeer j p s) := by
    intro b
    cases b
    · exact written
    · exact written.trans (setEvent_changes ..)
  split
  · exact (heard _).trans (.single (.peers _ _ id))
  · exact heard _

theorem passDue_changes (j : Station) (s : State) : Changes s (passDue j s) := by
  unfold passDue
  split
  · exact (stalePeer_changes ..).trans (absentPeer_changes ..)
  · exact .refl

theorem hearAnnounce_changes (f : AnnounceFrame) (b : Bool) (s : State) : Changes s (hearAnnounce f b s) := by
  unfold hearAnnounce
  split
  · exact setEvent_changes ..
  · next h => exact (passDue_changes ..).trans (takeFrame_changes _ _ (by simpa using h))

theorem hearAbility_changes (f : AbilityFrame) (b : Bool) (s : State) : Changes s (hearAbility f b s) := by
  unfold hearAbility
  split
  · exact setEvent_changes ..
  · next h => exact (passDue_changes ..).trans (takeFrame_changes _ _ (by simpa using h))

theorem whenHearing_changes {hear : State → State} (h : ∀ t, Changes t (hear t)) (s : State) :
    Changes s (whenHearing hear s) := by
  have seen : Changes s (lineSeenIdle s) := .single (.bus s _ rfl id)
  unfold whenHearing
  split
  · split
    · exact seen
    · exact seen.trans (h _)
  · exact .refl

theorem takeHoldDown_changes (s : State) : Changes s (takeHoldDown s) := by
  unfold takeHoldDown
  split
  · dsimp only
    split
    · exact (Relation.ReflTransGen.single (.work s _)).trans (.single (.edge _ _ (.inl rfl)))
    · exact .single (.work s _)
  · exact .refl

theorem takeUpdate_changes (s : State) : Changes s (takeUpdate s) := by
  unfold takeUpdate
  split
  · dsimp only
    refine .trans ?_ (b := takeHoldDown { s with pulse := { s.pulse with update := false } }) ?_
    · exact .trans (.single (.work s _)) (takeHoldDown_changes _)
    · split
      · next h => exact .single (.edge _ _ (.inr (.inr h)))
      · exact .refl
  · exact .refl

/-- A part of the work that is taken once: its mark is cleared before its act. -/
theorem taken_changes {s : State} {due : Bool} {w : PulseWork} {f : State → State}
    (h : ∀ t : State, Changes t (f t)) : Changes s (if due then f { s with pulse := w } else s) := by
  split
  · exact .trans (.single (.work s w)) (h _)
  · exact .refl

/-- A part of the work on the tracking state, which the part has in OPERATING and HOLDING alone. -/
theorem tracked_changes {f : State → State} (h : ∀ t : State, tracks t = true → Changes t (f t)) (t : State) :
    Changes t (if tracks t then f t else t) := by
  split
  · next ht => exact h t ht
  · exact .refl

theorem voidAtTarget_changes {s : State} (n : Epoch) (h : tracks s = true) : Changes s (voidAtTarget n s) := by
  unfold voidAtTarget
  split
  · exact .single (.void s n n h)
  · exact .refl

/-- Every part of a pulse's work, and every frame between them, is made of acts. -/
theorem takeTask_changes (s : State) (t : PulseTask) : Changes s (takeTask s t) := by
  cases t with
  | entry => exact taken_changes holdIfOperating_changes
  | decide => exact taken_changes testListening_changes
  | start => exact taken_changes startRun_changes
  | counts => exact taken_changes countContexts_changes
  | ageing => exact taken_changes agePeers_changes
  | timeouts => exact foldl_changes' (fun t i => timeoutContext_changes i t) _ s
  | dormancy => exact foldl_changes' (fun t i => dormantContext_changes i t) _ s
  | stale => exact foldl_changes' (fun t j => stalePeer_changes j t) _ s
  | absent => exact foldl_changes' (fun t j => absentPeer_changes j t) _ s
  | batchVoid =>
    exact taken_changes (f := fun t => if tracks t then voidAtTarget (now t) t else t)
      (tracked_changes fun t ht => voidAtTarget_changes (now t) ht)
  | grantExpiry =>
    exact taken_changes (f := fun t => if tracks t then expireGrants (now t) t else t)
      (tracked_changes fun t ht => .single (.expire t ht))
  | redoDrop =>
    exact taken_changes (f := fun t => if tracks t then dropDeadlines (now t) t else t)
      (tracked_changes fun t _ => .single (.drop t (now t)))
  | holdDown => exact takeHoldDown_changes s
  | update => exact takeUpdate_changes s
  | announce f b => exact whenHearing_changes (hearAnnounce_changes f b) s
  | ability f b => exact whenHearing_changes (hearAbility_changes f b) s

theorem takeTasks_changes (l : List PulseTask) (s : State) : Changes s (takeTasks l s) :=
  foldl_changes' takeTask_changes l s

theorem finishPulse_changes (s : State) : Changes s (finishPulse s) := by
  unfold finishPulse
  split
  · exact (takeTasks_changes ..).trans (.single (.work _ _))
  · exact .refl

/-! ## The arrival of a pulse -/

theorem pulseArrives_arrivals (interval : Nat) (s : State) : Arrivals s (pulseArrives interval s) := by
  unfold pulseArrives
  dsimp only
  refine .trans ?_ (Changes.arrivals (.single (.work _ _)))
  refine .trans (.single (.epoch s (s.align.epoch.map (· + 1)))) (Changes.arrivals ?_)
  exact (judgeWatch_changes ..).trans ((judgeBus_changes _).trans ((countEdge_changes _).trans
    (listenPulse_changes _)))

theorem restateEdge_changes (p : Epoch) (s : State) : Changes s (restateEdge p s) :=
  .single (.edge s _ (.inl rfl))

theorem emptyCarry_changes (s : State) : Changes s (emptyCarry s) := .single (.engine s _ (.inl rfl))

theorem recoverMarker_changes (p : Epoch) (s : State) : Changes s (recoverMarker p s) :=
  (Relation.ReflTransGen.single (.abort s true)).trans ((emptyCarry_changes _).trans
    ((Relation.ReflTransGen.single (.empty _)).trans (restateEdge_changes ..)))

theorem leaveHolding_changes {s : State} (h : s.align.opState = .holding) : Changes s (leaveHolding s) := by
  have emptied : Changes s (emptyTracking (emptyCarry s)) := .trans (emptyCarry_changes s) (.single (.empty _))
  have left {t : State} (ht : t.align.opState = .holding) :
      Changes t { t with edge := Edge.reset, align := { t.align with opState := .operating } } :=
    .trans (.single (.edge t Edge.reset (.inr (.inl rfl)))) (.single (.align _ _ rfl rfl (.inr ⟨.inr ht, rfl⟩)))
  exact emptied.trans (left (by simpa using h))

theorem markEffect_arrivals (p : Epoch) (s : State) : Arrivals s (markEffect p s) := by
  unfold markEffect
  split
  · exact (recoverMarker_changes ..).arrivals
  · next h =>
    split
    · exact (leaveHolding_changes h).arrivals
    · exact .single (.restate s p)
  · exact .refl
  · exact .refl

theorem testSlip_changes (s : State) : Changes s (testSlip s) := by
  unfold testSlip
  split
  · split
    · exact setEvent_changes ..
    · exact .refl
  · exact .refl

theorem markArrives_arrivals (interval : Nat) (s : State) : Arrivals s (markArrives interval s) := by
  unfold markArrives
  dsimp only
  have judged (t : State) : Changes t (judgeBus (judgeWatch interval t)) :=
    (judgeWatch_changes ..).trans (judgeBus_changes _)
  refine .trans ?_ (Changes.arrivals (.single (.work _ _)))
  refine .trans ?_ (listenPulse_changes _).arrivals
  refine .trans ?_ (markEffect_arrivals ..)
  refine .trans ?_ (countContexts_changes _).arrivals
  have zeroed : Arrivals s (setEpoch (some 0) (testSlip s)) :=
    (testSlip_changes s).arrivals.trans (.single (.epoch _ _))
  split
  · exact zeroed.trans (Changes.arrivals ((judged _).trans (holdIfOperating_changes _)))
  · exact zeroed.trans (judged _).arrivals

/-! ## The sector link's acts -/

theorem restartLink_changes (s : State) : Changes s (restartLink s) := .single (.line s _ rfl rfl rfl)

theorem lineStands_changes (b : Bool) (s : State) : Changes s (lineStands b s) := .single (.line s _ rfl rfl rfl)

theorem recordArrived_changes (s : State) : Changes s (recordArrived s) :=
  (lineStands_changes ..).trans (restartLink_changes _)

theorem hearIdle_changes (n : Nat) (s : State) : Changes s (hearIdle n s) := by
  have heard (b : Bool) (run : Nat) : Changes s { s with link := { s.link with afterIdle := b, idleRun := run } } :=
    .single (.line s _ rfl rfl rfl)
  unfold hearIdle
  dsimp only
  split
  · exact (heard _ _).trans (restartLink_changes _)
  · exact heard _ _

theorem joinFifo_changes (r : Record) (s : State) : Changes s (joinFifo r s) := by
  unfold joinFifo
  split
  · next h => exact .single (.fifo s _ fun _ => by simpa using h)
  · exact (advance_changes ..).trans (setEvent_changes ..)

theorem discardReceived_changes (k : Option Byte) (c : Code) (s : State) : Changes s (discardReceived k c s) := by
  unfold discardReceived
  split
  · exact discardMalformed_changes ..
  · exact .trans (.single (.freeValue s _)) (discardMalformed_changes ..)

theorem takeReception_changes (r : Reception) (s : State) : Changes s (takeReception r s) := by
  cases r with
  | wellFormed rec => exact (restartLink_changes s).trans (joinFifo_changes ..)
  | malformed kind code ok =>
    cases ok
    · exact discardReceived_changes ..
    · exact (restartLink_changes s).trans (discardReceived_changes ..)

theorem takeLine_changes (n : Nat) (l : List Byte) (s : State) : Changes s (takeLine n l s) := by
  induction n generalizing l s with
  | zero => exact .refl
  | succ n ih =>
    cases l with
    | nil => exact .refl
    | cons b rest =>
      unfold takeLine
      split
      · exact (hearIdle_changes 1 s).trans (ih ..)
      · split
        · exact (lineStands_changes _ s).trans ((takeReception_changes ..).trans (ih ..))
        · exact (lineStands_changes _ s).trans (ih ..)

theorem loseLink_changes (s : State) : Changes s (loseLink s) := by
  unfold loseLink
  split
  · exact .refl
  · refine .trans ?_ (holdIfOperating_changes _)
    refine .trans ?_ (setEvent_changes ..)
    exact .single (.line s _ rfl rfl rfl)

theorem loseEpoch_changes (s : State) : Changes s (loseEpoch s) := by
  have lost : Changes s (holdIfOperating (setEvent .epochLoss (epochField s.align.epoch) .none (setWatch .lost s))) :=
    (setWatch_changes .lost s).trans ((setEvent_changes ..).trans (holdIfOperating_changes _))
  unfold loseEpoch
  split
  · exact lost
  · exact lost
  · exact .refl
  · exact .refl

theorem sendHead_changes (s : State) : Changes s (sendHead s) := by
  unfold sendHead
  split
  · next r rest h => exact .single (.queue s _ _ fun hq => by rw [h] at hq; exact Nat.le_of_succ_le hq)
  · exact .refl

/-- A reply is queued while more than 4 entries are free (R162). -/
theorem reply_changes {r : Record} (out : OutRecord) {s : State} (hn : needsReply r = true)
    (h : isHeld r s = false) : Changes s (reply out s) := by
  refine .single (.queue s _ s.link.lastOut fun _ => ?_)
  have free : ¬Config.outboundDepth - s.link.queue.length ≤ Config.replyReserve := by
    simpa [isHeld, hn, LinkPort.outboundFree] using h
  simp only [Config.outboundDepth, Config.replyReserve] at free
  simp only [List.length_append, List.length_singleton, Config.outboundDepth]
  omega

/-- The FIFO's work on a record is made of acts when its owner's is (R161, R162).  The owner finds the outbound queue as
the hold of a reply leaves it. -/
theorem handOver_changes {r : Record} {owner : State → State} (h : ∀ t, isHeld r t = false → Changes t (owner t))
    (s : State) : Changes s (handOver r owner s) := by
  have arrives (t : State) : Changes t (joinFifo (clampRecord r) (recordArrived t)) :=
    (recordArrived_changes t).trans (joinFifo_changes ..)
  refine (finishPulse_changes s).trans ?_
  unfold handOver
  dsimp only
  generalize finishPulse s = t
  split
  · exact (recordArrived_changes t).trans (discardMalformed_changes ..)
  · split
    · split
      · exact arrives t
      · next hh => exact (recordArrived_changes t).trans (h _ (Bool.eq_false_of_not_eq_true hh))
    · next head rest hf =>
      split
      · split
        · exact .refl
        · next hh =>
          refine .trans (.single (.fifo t rest fun hr => ?_)) (h _ (Bool.eq_false_of_not_eq_true hh))
          rw [hf] at hr
          exact Nat.le_of_succ_le hr
      · exact arrives t

/-- A record refused in UNCONFIGURED (R151). -/
theorem whenConfigured_changes {r : Record} {owner : State → State}
    (h : ∀ t, t.align.opState ≠ .unconfigured → Changes t (owner t)) (s : State) :
    Changes s (whenConfigured r owner s) := by
  unfold whenConfigured
  split
  · exact setEvent_changes ..
  · next hc => exact h s hc

/-- A report reaches an attached context, or is stray (R28). -/
theorem applyReport_changes {i : Index} {apply : State → State}
    (h : ∀ t, (ctx t i).state.attached = true → Changes t (apply t)) (s : State) :
    Changes s (applyReport i apply s) := by
  unfold applyReport
  split
  · next ha => exact h s ha
  · exact advance_changes ..

/-! ## The records' owners -/

theorem takeAttach_changes (i : Index) (ident cls weight rtd : Nat) (s : State) :
    Changes s (takeAttach i ident cls weight rtd s) := by
  unfold takeAttach
  split
  · exact setEvent_changes ..
  · next hc =>
    split
    · exact setEvent_changes ..
    · next hf =>
      split
      · exact setEvent_changes ..
      · next hm =>
        exact .trans (.single (.attach s i ident cls weight rtd hc (by simpa using hf) (by simpa using hm)))
          (deriveBar_changes ..)

theorem takeRelease_changes (i : Index) (s : State) : Changes s (takeRelease i s) := by
  have accepted (h : (ctx s i).state.attached = true) : Changes s (acceptRelease i s) := .single (.release s i h)
  unfold takeRelease
  split
  · exact setEvent_changes ..
  · split
    · exact setEvent_changes ..
    · exact setEvent_changes ..
    · next h => exact accepted (by rw [h]; rfl)
    · next h => exact accepted (by rw [h]; rfl)
    · next h => exact accepted (by rw [h]; rfl)

/-- A report's touch wakes a DORMANT context at most. -/
theorem Context.touches_touched (c : Context) (w : Bool) : c.Touches (c.touched w) := by
  unfold Context.touched
  split
  · exact ⟨Iff.rfl, id, rfl, id⟩
  · next h =>
    split
    · exact ⟨by simp [h], by simp, rfl, id⟩
    · exact ⟨Iff.rfl, id, rfl, id⟩
  all_goals exact ⟨Iff.rfl, id, rfl, id⟩

theorem Context.Touches.trans {a b c : Context} (h : a.Touches b) (g : b.Touches c) : a.Touches c :=
  ⟨g.free.trans h.free, h.admitting ∘ g.admitting, g.outstanding.trans h.outstanding, g.figures ∘ h.figures⟩

theorem addDlData_changes (i : Index) (n : Nat) (s : State) : Changes s (addDlData i n s) := by
  have written : Changes s (setCtx i (Context.touched
      { ctx s i with dlBacklog := min Config.backlogMax ((ctx s i).dlBacklog + n) } true) s) := by
    refine setCtx_changes (.trans ?_ (Context.touches_touched ..))
    exact ⟨Iff.rfl, id, rfl, fun h => ⟨Nat.min_le_left _ _, h.2⟩⟩
  unfold addDlData
  dsimp only
  split
  · exact written.trans (setEvent_changes ..)
  · exact written

theorem writeUlBuf_changes (i : Index) (n : Nat) (s : State) : Changes s (writeUlBuf i n s) := by
  have written : Changes s (setCtx i (Context.touched
      { ctx s i with ulBacklog := min Config.backlogMax n } (decide (0 < n))) s) := by
    refine setCtx_changes (.trans ?_ (Context.touches_touched ..))
    exact ⟨Iff.rfl, id, rfl, fun h => ⟨h.1, Nat.min_le_left _ _, h.2.2⟩⟩
  unfold writeUlBuf
  dsimp only
  split
  · exact written.trans (setEvent_changes ..)
  · exact written

theorem writeGrades_changes (i : Index) (dl ul : Nat) (s : State) : Changes s (writeGrades i dl ul s) := by
  refine setCtx_changes ?_
  unfold Context.regraded
  dsimp only
  split
  · next h =>
    split
    · exact ⟨by simp [h], by simp, rfl, id⟩
    · exact ⟨Iff.rfl, id, rfl, id⟩
  all_goals exact ⟨Iff.rfl, id, rfl, id⟩

theorem writeRange_changes (i : Index) (n : Nat) (s : State) : Changes s (writeRange i n s) := by
  refine .trans ?_ (deriveBar_changes ..)
  exact setCtx_changes ⟨Iff.rfl, id, rfl, id⟩

theorem countLate_changes (i : Index) (n : Nat) (s : State) : Changes s (countLate i n s) := by
  refine .trans ?_ (deriveBar_changes ..)
  exact setCtx_changes ⟨Iff.rfl, id, rfl, id⟩

theorem takeReceipt_changes (e : Epoch) (s : State) : Changes s (takeReceipt e s) := by
  have stray (k : EventKind) (c : Code) : Changes s (strayReceipt k e c s) :=
    (setEvent_changes ..).trans (advance_changes ..)
  unfold takeReceipt
  split
  · next ht =>
    split
    · next hs => exact .single (.commit s e ht hs)
    · exact advance_changes ..
    · exact stray ..
    · exact stray ..
    · exact stray ..
  · exact stray ..

theorem findGrant_tag {s : State} {t : Tag} {g : OgtEntry} (h : findGrant s t = some g) : g.tag = t := by
  simpa using List.find?_some h

theorem takeFeedback_changes (e : Epoch) (p : Nat) (fail : Bool) (s : State) : Changes s (takeFeedback e p fail s) := by
  have stray (c : Code) : Changes s (strayFeedback e c s) := (setEvent_changes ..).trans (advance_changes ..)
  unfold takeFeedback
  split
  · next g h =>
    have found : findGrant s g.tag = some g := by rw [findGrant_tag h]; exact h
    split
    · split
      · exact .single (.fail s g found)
      · exact .single (.settle s g found)
    · exact stray ..
  · exact stray ..

theorem acceptRealign_changes {s : State} (h : s.align.opState ≠ .unconfigured) : Changes s (acceptRealign s) := by
  have emptied : Changes s (emptyTracking (emptyCarry (discardRun (cutPlans s)))) :=
    (cutPlans_changes s).trans (.trans (.single (.engine _ _ (.inr rfl)))
      ((emptyCarry_changes _).trans (.single (.empty _))))
  refine emptied.trans ?_
  unfold acceptRealign
  dsimp only
  generalize hu : emptyTracking (emptyCarry (discardRun (cutPlans s))) = u
  have hop : u.align = s.align := by subst hu; simp
  refine .trans (.single (.relisten u (by simpa [hop] using h) ?_ ?_ ?_ ?_)) ?_
  · subst hu; simp
  · subst hu; simp
  · subst hu; simp
  · subst hu; simp
  · refine .single (.bus _ u.bus.realigned ?_ ?_)
    · unfold BusPort.realigned; split <;> rfl
    · unfold BusPort.realigned; split <;> exact id

theorem takeStatusReq_changes {zero : Bool} {s : State} (h : isHeld (.statusReq zero) s = false) :
    Changes s (takeStatusReq zero s) := by
  have answered : Changes s (reply (.status (statusOf s)) s) := reply_changes _ rfl h
  unfold takeStatusReq
  dsimp only
  split
  · exact answered.trans (.single (.events _ _ ⟨rfl, rfl, rfl⟩
      (fun ha => ha.trans (alertLevel_congr rfl rfl rfl rfl)) (fun _ c => by simp [EventUnit.zeroed])
      fun _ => by simp [EventUnit.zeroed, Config.lostUnit]))
  · exact answered

theorem setRequestedFloor_changes (n : Nat) (s : State) : Changes s (setRequestedFloor n s) :=
  .single (.engine s _ (.inl rfl))

theorem clearFlags_changes (mask : BitVec 32) (s : State) : Changes s (clearFlags mask s) :=
  .single (.events s _ ⟨rfl, rfl, rfl⟩ (fun _ => rfl) id id)

/-! ## The bus's acts -/

theorem frameGone_changes (s : State) : Changes s (frameGone s) := by
  unfold frameGone
  split
  · refine .single (.bus s _ ?_ ?_) <;> simp only [BusPort.afterAttempt] <;> split <;> first | rfl | exact id
  · exact .refl

/-- The transmit side after an attempt keeps the generator and the cut-off state. -/
@[simp] theorem afterAttempt_keeps (b : BusPort) :
    b.afterAttempt.generator = b.generator ∧ b.afterAttempt.cutOff = b.cutOff := by
  unfold BusPort.afterAttempt
  split <;> exact ⟨rfl, rfl⟩

/-- A write of the transmit side that keeps the generator and the cut-off state. -/
theorem bus_changes {s : State} {b : BusPort} (generator : b.generator = s.bus.generator)
    (cutOff : b.cutOff = s.bus.cutOff) : Changes s { s with bus := b } :=
  .single (.bus s b generator fun h => cutOff.trans h)

theorem collide_changes (s : State) : Changes s (collide s) := by
  have counted : Changes s (advance .collisions 1 (transmitterStops s)) := by
    refine .trans ?_ (advance_changes ..)
    exact bus_changes rfl rfl
  unfold collide
  split
  · dsimp only
    split
    · exact counted.trans (bus_changes (by simp) (by simp))
    · split
      · exact counted.trans (bus_changes rfl rfl)
      · refine .trans ?_ (advance_changes ..)
        exact counted.trans (bus_changes rfl rfl)
  · exact .refl

theorem cutOff_changes (s : State) : Changes s (cutOff s) := by
  have flagged : Changes s (setEvent .busJabber s.align.station.val .none s) := setEvent_changes ..
  have counted : Changes s (if s.bus.due.isSome then advance .unsentFrames 1
      (setEvent .busJabber s.align.station.val .none s) else setEvent .busJabber s.align.station.val .none s) := by
    split
    · exact flagged.trans (advance_changes ..)
    · exact flagged
  unfold cutOff
  split
  · exact .refl
  · exact counted.trans (.single (.bus _ _ rfl fun _ => rfl))

theorem deferralEnds_changes (s : State) : Changes s (deferralEnds s) := by
  unfold deferralEnds
  split
  · exact bus_changes rfl rfl
  · exact .refl

theorem deferralBreaks_changes (n : Nat) (s : State) : Changes s (deferralBreaks n s) := by
  unfold deferralBreaks
  split
  · exact bus_changes rfl rfl
  · exact .refl

theorem hearBytes_changes (l : List Byte) (p : Bool) (s : State) : Changes s (hearBytes l p s) := by
  unfold hearBytes
  split
  · exact hearAnnounce_changes ..
  · exact hearAbility_changes ..
  · exact discardFrame_changes s

/-! ## The commands -/

/-- What a command's run can be: acts alone, or for six commands an act of their own besides. -/
inductive Runs : Instr → State → State → Prop
  | acts {c : Instr} {s t : State} (h : Changes s t) : Runs c s t
  | reset (station : Station) (s : State) :
      Runs (.hardReset station) s
        { State.resetAt station with
          pending := s.pending, freeValues := s.freeValues
          link := { LinkPort.reset with lastOut := resetOutput s.link } }
  | configured {b : ConfigBody} {s u : State} (h : Changes s u) (op : u.align.opState = .unconfigured)
      (room : isHeld (.config b) u = false) : Runs (.config b) s (acceptConfig b u)
  | idleLine {s u : State} (h : Changes s u) : Runs .busIdleDetected s (idleDetected u)
  | completed {r : Run} {s u : State} (h : Changes s u) (run : u.engine.run = some r) (room : planFits u = true) :
      Runs .runCompletion s (completeRun r u)
  | pulse {interval : Nat} {order : List PulseTask} {s t : State} (h : Arrivals s t) :
      Runs (.epochPulse interval order) s t
  | mark {interval : Nat} {order : List PulseTask} {s t : State} (h : Arrivals s t) :
      Runs (.markPulse interval order) s t

/-- A CONFIG is locked, or acts as its owner accepts it. -/
theorem handOver_config_runs (b : ConfigBody) (s : State) :
    Runs (.config b) s (handOver (.config b) (takeConfig b) s) := by
  have arrives (t : State) : Changes t (joinFifo (clampRecord (.config b)) (recordArrived t)) :=
    (recordArrived_changes t).trans (joinFifo_changes ..)
  have taken {u : State} (h : Changes s u) (hh : isHeld (.config b) u = false) :
      Runs (.config b) s (takeConfig b u) := by
    unfold takeConfig
    split
    · next hop => exact .configured h hop hh
    · exact .acts (h.trans (reply_changes (r := .config b) _ rfl hh))
  have finished := finishPulse_changes s
  unfold handOver
  dsimp only
  generalize finishPulse s = t at *
  split
  · exact .acts (finished.trans ((recordArrived_changes t).trans (discardMalformed_changes ..)))
  · split
    · split
      · exact .acts (finished.trans (arrives t))
      · next hh => exact taken (finished.trans (recordArrived_changes t)) (Bool.eq_false_of_not_eq_true hh)
    · next head rest hf =>
      split
      · split
        · exact .acts finished
        · next hh =>
          refine taken (finished.trans (.single (.fifo t rest fun hr => ?_))) (Bool.eq_false_of_not_eq_true hh)
          rw [hf] at hr
          exact Nat.le_of_succ_le hr
      · exact .acts (finished.trans (arrives t))

/-- What a command can do. -/
theorem exec_runs {c : Instr} {s t : State} (h : exec c s = .next t) : Runs c s t := by
  have finished := finishPulse_changes s
  cases c with
  | hardReset station => cases h; exact .reset station s
  | config b => cases h; exact handOver_config_runs b s
  | realign => cases h; exact .acts (handOver_changes (fun t _ => whenConfigured_changes (fun _ => acceptRealign_changes) t) s)
  | attach i a b c d => cases h; exact .acts (handOver_changes (fun t _ => takeAttach_changes _ _ _ _ _ t) s)
  | release i => cases h; exact .acts (handOver_changes (fun t _ => takeRelease_changes i t) s)
  | dlData i n =>
    cases h
    exact .acts (handOver_changes (fun t _ => whenConfigured_changes (fun u _ =>
      applyReport_changes (fun v _ => addDlData_changes i _ v) u) t) s)
  | ulBuf i n =>
    cases h
    exact .acts (handOver_changes (fun t _ => whenConfigured_changes (fun u _ =>
      applyReport_changes (fun v _ => writeUlBuf_changes i _ v) u) t) s)
  | channel i d u =>
    cases h
    exact .acts (handOver_changes (fun t _ => whenConfigured_changes (fun u _ =>
      applyReport_changes (fun v _ => writeGrades_changes i _ _ v) u) t) s)
  | range i n =>
    cases h
    exact .acts (handOver_changes (fun t _ => whenConfigured_changes (fun u _ =>
      applyReport_changes (fun v _ => writeRange_changes i _ v) u) t) s)
  | late i n =>
    cases h
    exact .acts (handOver_changes (fun t _ => whenConfigured_changes (fun u _ =>
      applyReport_changes (fun v _ => countLate_changes i _ v) u) t) s)
  | feedback e p f =>
    cases h
    exact .acts (handOver_changes (fun t _ => whenConfigured_changes (fun u _ => takeFeedback_changes e p f u) t) s)
  | receipt e =>
    cases h
    exact .acts (handOver_changes (fun t _ => whenConfigured_changes (fun u _ => takeReceipt_changes e u) t) s)
  | floor n =>
    cases h
    exact .acts (handOver_changes (fun t _ => whenConfigured_changes (fun u _ => setRequestedFloor_changes _ u) t) s)
  | query i => cases h; exact .acts (handOver_changes (fun t ht => reply_changes _ rfl ht) s)
  | statusReq z => cases h; exact .acts (handOver_changes (fun t ht => takeStatusReq_changes ht) s)
  | clear m =>
    cases h
    exact .acts (handOver_changes (fun t _ => whenConfigured_changes (fun u _ => clearFlags_changes m u) t) s)
  | recordReceived l => cases h; exact .acts (finished.trans (takeLine_changes ..))
  | idlePatternReceived n => cases h; exact .acts (finished.trans (hearIdle_changes ..))
  | linkLoss => cases h; exact .acts (finished.trans (loseLink_changes _))
  | recordSent => cases h; exact .acts (finished.trans (sendHead_changes _))
  | epochPulse n order =>
    cases h
    refine .pulse ?_
    dsimp only
    split
    · exact finished.arrivals
    · exact finished.arrivals.trans ((pulseArrives_arrivals ..).trans (takeTasks_changes ..).arrivals)
  | epochLoss => cases h; exact .acts (finished.trans (loseEpoch_changes _))
  | markPulse n order =>
    cases h
    refine .mark ?_
    dsimp only
    split
    · exact finished.arrivals
    · exact finished.arrivals.trans ((markArrives_arrivals ..).trans (takeTasks_changes ..).arrivals)
  | batchVoid => cases h; exact .acts (takeTask_changes s .batchVoid)
  | grantExpiry => cases h; exact .acts (takeTask_changes s .grantExpiry)
  | redoDrop => cases h; exact .acts (takeTask_changes s .redoDrop)
  | attachTimeout i => cases h; exact .acts (timeoutContext_changes i s)
  | goDormant i => cases h; exact .acts (dormantContext_changes i s)
  | updateEvent => cases h; exact .acts (takeUpdate_changes s)
  | holdDownExpiry => cases h; exact .acts (takeHoldDown_changes s)
  | peerStale j => cases h; exact .acts (stalePeer_changes j s)
  | peerAbsent j => cases h; exact .acts (absentPeer_changes j s)
  | runCompletion =>
    cases h
    unfold finishRun
    split
    · next r hr =>
      split
      · next hp => exact .completed finished hr hp
      · exact .acts finished
    · exact .acts finished
  | busIdleDetected => cases h; exact .idleLine finished
  | deferralExpired => cases h; exact .acts (finished.trans (deferralEnds_changes _))
  | deferralInterrupted n => cases h; exact .acts (finished.trans (deferralBreaks_changes n _))
  | frameSent => cases h; exact .acts (finished.trans (frameGone_changes _))
  | collision => cases h; exact .acts (finished.trans (collide_changes _))
  | busJabber => cases h; exact .acts (finished.trans (cutOff_changes _))
  | announceReceived f b => cases h; exact .acts (whenHearing_changes (hearAnnounce_changes f b) s)
  | abilityReceived f b => cases h; exact .acts (whenHearing_changes (hearAbility_changes f b) s)
  | busCrc l p => cases h; exact .acts (whenHearing_changes (hearBytes_changes l p) s)
  | framingLost l =>
    cases h
    exact .acts (finished.trans ((lineStands_changes ..).trans (discardReceived_changes ..)))

/-! ## Laws -/

/-- A law that every act keeps is kept by acts one after another. -/
theorem Changes.keeps {P : State → Prop} (h : ∀ s t, Change s t → P s → P t) {s t : State} (hst : Changes s t)
    (hs : P s) : P t := by
  induction hst with
  | refl => exact hs
  | tail _ hc ih => exact h _ _ hc ih

/-- A law that every act keeps, and the two acts of a pulse, is kept by a pulse. -/
theorem Arrivals.keeps {P : State → Prop} (h : ∀ s t, Arrival s t → P s → P t) {s t : State} (hst : Arrivals s t)
    (hs : P s) : P t := by
  induction hst with
  | refl => exact hs
  | tail _ hc ih => exact h _ _ hc ih

/-- What a law must pass for every step to keep it: the acts, the two acts of a pulse, and the acts that four commands
have of their own; and it does not see the queue of commands. -/
structure Law (P : State → Prop) : Prop where
  change : ∀ s t, Change s t → P s → P t
  epoch : ∀ e s, P s → P (setEpoch e s)
  restate : ∀ p s, P s → P (restateTracking p s)
  reset : ∀ (station : Station) (s : State),
    P { State.resetAt station with
        pending := s.pending, freeValues := s.freeValues
        link := { LinkPort.reset with lastOut := resetOutput s.link } }
  config : ∀ b s, s.align.opState = .unconfigured → isHeld (.config b) s = false → P s → P (acceptConfig b s)
  idle : ∀ s, P s → P (idleDetected s)
  complete : ∀ r s, s.engine.run = some r → planFits s = true → P s → P (completeRun r s)
  pending : ∀ l s, P s → P { s with pending := l }

/-- Every command keeps a law. -/
theorem Law.exec {P : State → Prop} (law : Law P) {c : Instr} {s t : State} (h : exec c s = .next t) (hs : P s) :
    P t := by
  have arrival : ∀ s t, Arrival s t → P s → P t := by
    intro s t ha
    cases ha with
    | change h => exact law.change s t h
    | epoch e => exact law.epoch e s
    | restate p => exact law.restate p s
  cases exec_runs h with
  | acts h => exact Changes.keeps law.change h hs
  | reset station => exact law.reset station s
  | configured hu op room => exact law.config _ _ op room (Changes.keeps law.change hu hs)
  | idleLine hu => exact law.idle _ (Changes.keeps law.change hu hs)
  | completed hu run room => exact law.complete _ _ run room (Changes.keeps law.change hu hs)
  | pulse h => exact Arrivals.keeps arrival h hs
  | mark h => exact Arrivals.keeps arrival h hs

/-- Every step keeps a law. -/
theorem Law.step {P : State → Prop} (law : Law P) {s t : State} (h : step s = .next t) (hs : P s) : P t := by
  unfold Machine.step at h
  split at h
  · cases h; exact hs
  · exact law.exec h (law.pending _ _ hs)

end Sys2Proof.Machine
end


section
/-!
PROOFS. The laws that every step keeps, each from what the acts do to the parts of the state that it reads: the lines
and stores, the figures of the contexts, the allowance, runs and tracked plans, the own station's record and the ring.
-/
namespace Sys2Proof.Machine

/-! ## What an operation tells: the Event Unit and the outbound queue (R161, R163, R166, R167, R169) -/

/-- From `s` to `t` the Event Unit and the link port take part by reports alone, whatever else is written. -/
structure Told (s t : State) : Prop where
  queued : ∃ ns : List Notice, t.link = { s.link with queue := s.link.queue ++ ns.map OutRecord.notice }
  room : s.link.queue.length ≤ Config.outboundDepth → t.link.queue.length ≤ Config.outboundDepth
  flags : ∀ k, s.events.flag k = true → t.events.flag k = true
  settings : t.events.enables = s.events.enables ∧ t.events.levels = s.events.levels ∧
    t.events.threshold = s.events.threshold
  alert : s.events.alert = s.events.alertLevel → t.events.alert = t.events.alertLevel
  counters : (∀ c, s.events.counters.get c ≤ Config.counterMax) → ∀ c, t.events.counters.get c ≤ Config.counterMax
  remainder : s.events.remainder < Config.lostUnit → t.events.remainder < Config.lostUnit

theorem Told.of_eq {s t : State} (events : t.events = s.events) (link : t.link = s.link) : Told s t :=
  ⟨⟨[], by simp [link]⟩, by rw [link]; exact id, by rw [events]; exact fun _ h => h, by rw [events]; exact ⟨rfl, rfl, rfl⟩,
    by rw [events]; exact id, by rw [events]; exact id, by rw [events]; exact id⟩

theorem Told.refl (s : State) : Told s s := .of_eq rfl rfl

theorem Told.trans {s t u : State} (h : Told s t) (g : Told t u) : Told s u where
  queued := by
    obtain ⟨ns, hn⟩ := h.queued
    obtain ⟨ms, hm⟩ := g.queued
    exact ⟨ns ++ ms, by rw [hm, hn]; simp⟩
  room := g.room ∘ h.room
  flags := fun k a => g.flags k (h.flags k a)
  settings := ⟨g.settings.1.trans h.settings.1, g.settings.2.1.trans h.settings.2.1,
    g.settings.2.2.trans h.settings.2.2⟩
  alert := g.alert ∘ h.alert
  counters := g.counters ∘ h.counters
  remainder := g.remainder ∘ h.remainder

theorem Reports.told {s t : State} (h : Reports s t)
    (remainder : s.events.remainder < Config.lostUnit → t.events.remainder < Config.lostUnit) : Told s t :=
  ⟨h.queued, h.room, h.flags, h.settings, h.alert, h.counters, remainder⟩

theorem foldl_told {α : Type} {f : State → α → State} (h : ∀ s a, Told s (f s a)) (l : List α) (s : State) :
    Told s (l.foldl f s) := by
  induction l generalizing s with
  | nil => exact .refl s
  | cons a l ih => exact (h s a).trans (ih _)

theorem setEvent_told (k : EventKind) (n : Nat) (c : Code) (s : State) : Told s (setEvent k n c s) :=
  (setEvent_reports k n c s).told (by simp)

theorem advance_told (c : Counter) (n : Nat) (s : State) : Told s (advance c n s) :=
  (advance_reports c n s).told (by simp)

theorem loseBytes_told (n : Nat) (s : State) : Told s (loseBytes n s) :=
  (loseBytes_reports n s).told fun _ => by rw [remainder_loseBytes]; exact Nat.mod_lt _ (by decide)

theorem setCtx_told (i : Index) (c : Context) (s : State) : Told s (setCtx i c s) := .of_eq rfl rfl

theorem removeGrant_told (t : Tag) (s : State) : Told s (removeGrant t s) := .of_eq rfl rfl

theorem dropGrant_told (k : EventKind) (c : Code) (i : Index) (n : Nat) (s : State) : Told s (dropGrant k c i n s) :=
  (setEvent_told ..).trans ((advance_told ..).trans (loseBytes_told ..))

theorem addRedo_told (e : RedoEntry) (s : State) : Told s (addRedo e s) := by
  have added : Told s (setRedo (insertRedo e s.tracking.redo) s) := .of_eq rfl rfl
  unfold addRedo
  dsimp only
  split
  · exact added.trans (setEvent_told ..)
  · exact added

theorem failGrant_told (g : OgtEntry) (s : State) : Told s (failGrant g s) := by
  unfold failGrant
  split
  · exact loseBytes_told ..
  · split
    · exact dropGrant_told ..
    · split
      · exact dropGrant_told ..
      · refine .trans ?_ (addRedo_told ..)
        exact .of_eq rfl rfl

theorem returnGrant_told (n : Epoch) (g : OgtEntry) (o : RedoOrigin) (s : State) : Told s (returnGrant n g o s) := by
  unfold returnGrant
  split
  · exact loseBytes_told ..
  · split
    · exact dropGrant_told ..
    · split
      · exact dropGrant_told ..
      · exact addRedo_told ..

theorem refund_told (i : Index) (d : Direction) (n : Nat) (s : State) : Told s (refund i d n s) := by
  unfold refund
  dsimp only
  split
  · split
    · refine .trans ?_ (setEvent_told ..)
      exact .of_eq rfl rfl
    · exact .of_eq rfl rfl
  · exact .refl s

theorem releaseDone_told (i : Index) (s : State) : Told s (releaseDone i s) := by
  refine .trans ?_ (setEvent_told ..)
  exact .of_eq rfl rfl

theorem dropOutstanding_told (i : Index) (s : State) : Told s (dropOutstanding i s) := by
  unfold dropOutstanding
  dsimp only
  split
  · refine .trans ?_ (releaseDone_told ..)
    exact .of_eq rfl rfl
  · exact .of_eq rfl rfl

theorem failEntry_told (s : State) (g : OgtEntry) : Told s (failEntry s g) := by
  refine .trans ?_ (dropOutstanding_told ..)
  refine .trans ?_ (failGrant_told ..)
  exact .of_eq rfl rfl

theorem voidEntry_told (n : Epoch) (s : State) (g : OgtEntry) : Told s (voidEntry n s g) := by
  have removed : Told s (removeGrant g.tag s) := .of_eq rfl rfl
  unfold voidEntry
  refine .trans ?_ (dropOutstanding_told ..)
  split
  · exact removed.trans (returnGrant_told ..)
  · exact removed.trans (refund_told ..)

theorem voidBatch_told (n e : Epoch) (s : State) : Told s (voidBatch n e s) := by
  refine .trans ?_ (advance_told ..)
  refine .trans ?_ (setEvent_told ..)
  refine .trans (foldl_told (voidEntry_told n) (s.tracking.ogt.filter fun g => g.tag.epoch == e) s) ?_
  exact .of_eq rfl rfl

theorem dropDeadlines_told (n : Epoch) (s : State) : Told s (dropDeadlines n s) := by
  have removed : Told s (setRedo (s.tracking.redo.filter fun e => !earlier e.deadline n) s) := .of_eq rfl rfl
  exact removed.trans (foldl_told (f := dropExpired) (fun t e => dropGrant_told .redoDrop .deadline e.context e.bytes t) ..)

theorem releaseRedo_told (i : Index) (s : State) : Told s (releaseRedo i s) := by
  refine .trans ?_ (loseBytes_told ..)
  exact .of_eq rfl rfl

theorem acceptRelease_told (i : Index) (s : State) : Told s (acceptRelease i s) := by
  have cleared (c : Context) : Told s (setCtx i c (releaseRedo i s)) :=
    (releaseRedo_told i s).trans (setCtx_told ..)
  unfold acceptRelease
  dsimp only
  split
  · refine .trans ?_ (setCtx_told ..)
    exact cleared _
  · refine .trans ?_ (releaseDone_told ..)
    exact cleared _

theorem frameDue_told (f : BusFrame) (s : State) : Told s (frameDue f s) := by
  unfold frameDue
  split
  · exact advance_told ..
  · split <;> exact .of_eq rfl rfl

theorem abortRun_told (b : Bool) (s : State) : Told s (abortRun b s) := by
  unfold abortRun
  split
  · next r _ =>
    have reported : Told s (setPrev 0 (setBatch r.target .missed (discardRun s))) := .of_eq rfl rfl
    unfold abortTarget
    refine .trans ?_ (advance_told ..)
    refine .trans ?_ (setEvent_told ..)
    split
    · exact reported.trans (frameDue_told ..)
    · exact reported
  · exact .refl s

theorem emptyOutstanding_told (s : State) : Told s (emptyOutstanding s) := by
  have zeroed : Told s { s with contexts := s.contexts.map fun c => { c with outstanding := 0 } } := .of_eq rfl rfl
  exact zeroed.trans (foldl_told (f := fun t i => releaseDone i t) (fun t i => releaseDone_told i t) _ _)

theorem emptyTracking_told (s : State) : Told s (emptyTracking s) := by
  refine .trans ?_ (emptyOutstanding_told _)
  refine .trans ?_ (loseBytes_told ..)
  exact .of_eq rfl rfl

theorem computeAllowance_told (e : Epoch) (s : State) : Told s (computeAllowance e s) := by
  unfold computeAllowance
  dsimp only
  split
  · refine .trans ?_ (setEvent_told ..)
    exact .of_eq rfl rfl
  · exact .of_eq rfl rfl

theorem beginRun_told (e : Epoch) (m : Mode) (s : State) : Told s (beginRun e m s) :=
  (computeAllowance_told e s).trans (.of_eq rfl rfl)

/-- An act tells what it does by reports, or it is one of the four that write the link port or the Event Unit itself. -/
theorem Change.tells {s t : State} (h : Change s t) :
    Told s t ∨
      (∃ l : LinkPort, l.fifo = s.link.fifo ∧ l.ready = s.link.ready ∧ l.queue = s.link.queue ∧
        t = { s with link := l }) ∨
      (∃ l : List Record, (s.link.fifo.length ≤ Config.fifoDepth → l.length ≤ Config.fifoDepth) ∧ t = setFifo l s) ∨
      (∃ (q : List OutRecord) (o : Option LinkOutput),
        (s.link.queue.length ≤ Config.outboundDepth → q.length ≤ Config.outboundDepth) ∧
          t = { s with link := { s.link with queue := q, lastOut := o } }) ∨
      ∃ e : EventUnit,
        (e.enables = s.events.enables ∧ e.levels = s.events.levels ∧ e.threshold = s.events.threshold) ∧
        (s.events.alert = s.events.alertLevel → e.alert = e.alertLevel) ∧
        ((∀ c, s.events.counters.get c ≤ Config.counterMax) → ∀ c, e.counters.get c ≤ Config.counterMax) ∧
        (s.events.remainder < Config.lostUnit → e.remainder < Config.lostUnit) ∧ t = { s with events := e } := by
  cases h with
  | line l fifo ready queue => exact .inr (.inl ⟨l, fifo, ready, queue, rfl⟩)
  | fifo l room => exact .inr (.inr (.inl ⟨l, room, rfl⟩))
  | queue q o room => exact .inr (.inr (.inr (.inl ⟨q, o, room, rfl⟩)))
  | events e settings alert counters remainder =>
    exact .inr (.inr (.inr (.inr ⟨e, settings, alert, counters, remainder, rfl⟩)))
  | report h remainder => exact .inl (h.told remainder)
  | expire => exact .inl (foldl_told failEntry_told _ _)
  | void n e => exact .inl (voidBatch_told ..)
  | drop n => exact .inl (dropDeadlines_told ..)
  | fail g => exact .inl (failEntry_told ..)
  | settle g => exact .inl (.trans (removeGrant_told g.tag s) (dropOutstanding_told ..))
  | release i => exact .inl (acceptRelease_told ..)
  | abort b => exact .inl (abortRun_told ..)
  | empty => exact .inl (emptyTracking_told _)
  | start e m => exact .inl (beginRun_told ..)
  | work | freeValue | bus | contexts | attach | timeout | commit | hold | engine | relisten | edge | power | align
  | peers => exact .inl (.of_eq rfl rfl)

/-- The completion of a run up to the figures it hands to the ERU, before its PLAN is queued. -/
def handedOff (r : Run) (s : State) : State :=
  let delivered := deliveredGrants s r
  handFigures r.target delivered (updateAverages r.target delivered r.snapshot (consumeRedo delivered
    (chargeGrants delivered (raiseOutstanding delivered (enterBatch r.target delivered (discardRun s))))))

/-- The state with the PLAN of a completed run queued, before its ANNOUNCE is due (R82). -/
def planQueued (r : Run) (s : State) : State :=
  { handedOff r s with link := (handedOff r s).link.enqueue (.plan (planOf r (deliveredGrants s r))) }

theorem completeRun_eq (r : Run) (s : State) :
    completeRun r s =
      advance .unplaced ((placeDownlink r).unplaced + (placeUplink r).unplaced)
        (advance .grantsStruck ((placedGrants r).length - (deliveredGrants s r).length)
          (frameDue (announcement (planQueued r s) r.target (planPower (deliveredGrants s r))) (planQueued r s))) := rfl

@[simp] theorem handedOff_events (r : Run) (s : State) : (handedOff r s).events = s.events := by
  simp [handedOff]

@[simp] theorem handedOff_link (r : Run) (s : State) : (handedOff r s).link = s.link := by
  simp [handedOff]

/-- Once its PLAN is queued the completion of a run tells by reports (R82). -/
theorem completeRun_told (r : Run) (s : State) : Told (planQueued r s) (completeRun r s) := by
  rw [completeRun_eq]
  refine .trans ?_ (advance_told ..)
  refine .trans ?_ (advance_told ..)
  exact frameDue_told ..

/-! ## The lines and the stores -/

theorem alert_reset : EventUnit.reset.alert = EventUnit.reset.alertLevel := by decide

/-- ALERT, READY and the FIFO's depth (R161, R167). -/
theorem linesFollow_law : Law State.LinesFollow where
  change := by
    intro s t h hs
    obtain ⟨alert, ready, depth⟩ := hs
    rcases h.tells with told | ⟨l, fifo, rdy, _, rfl⟩ | ⟨l, room, rfl⟩ | ⟨q, o, _, rfl⟩ | ⟨e, _, hal, _, _, rfl⟩
    · obtain ⟨ns, hl⟩ := told.queued
      rw [State.LinesFollow, hl]
      exact ⟨told.alert alert, ready, depth⟩
    · exact ⟨alert, by rw [rdy, fifo]; exact ready, by rw [fifo]; exact depth⟩
    · exact ⟨alert, rfl, room depth⟩
    · exact ⟨alert, ready, depth⟩
    · exact ⟨hal alert, ready, depth⟩
  epoch := fun _ _ h => h
  restate := fun _ _ h => h
  reset := fun _ _ => ⟨alert_reset, rfl, Nat.zero_le _⟩
  config := fun _ _ _ _ h => ⟨rfl, h.2.1, h.2.2⟩
  idle := fun s h => by simpa [State.LinesFollow] using h
  complete := by
    intro r s _ _ ⟨alert, ready, depth⟩
    have told := completeRun_told r s
    obtain ⟨ns, hq⟩ := told.queued
    rw [State.LinesFollow, hq]
    exact ⟨told.alert (by simpa [planQueued] using alert), by simpa [planQueued, LinkPort.enqueue] using ready,
      by simpa [planQueued, LinkPort.enqueue] using depth⟩
  pending := fun _ _ h => h

/-- Settles O54: ALERT and READY follow, by the acts that write the Event Unit and the link port. -/
theorem stepKeepsLinesFollowing : Obligations.StepKeepsLinesFollowing :=
  fun _ _ hs h => linesFollow_law.step h hs

/-- The counters' bounds (R169). -/
theorem countersBounded_law : Law State.CountersBounded where
  change := by
    intro s t h ⟨counters, remainder⟩
    rcases h.tells with told | ⟨l, _, _, _, rfl⟩ | ⟨l, _, rfl⟩ | ⟨q, o, _, rfl⟩ | ⟨e, _, _, hc, hr, rfl⟩
    · exact ⟨told.counters counters, told.remainder remainder⟩
    · exact ⟨counters, remainder⟩
    · exact ⟨counters, remainder⟩
    · exact ⟨counters, remainder⟩
    · exact ⟨hc counters, hr remainder⟩
  epoch := fun _ _ h => h
  restate := fun _ _ h => h
  reset := fun _ _ => ⟨fun c => by simp [State.resetAt, EventUnit.reset], Nat.zero_lt_succ _⟩
  config := fun _ _ _ _ h => h
  idle := fun s h => by simpa [State.CountersBounded] using h
  complete := by
    intro r s _ _ ⟨counters, remainder⟩
    have told := completeRun_told r s
    exact ⟨told.counters (by simpa [planQueued] using counters), told.remainder (by simpa [planQueued] using remainder)⟩
  pending := fun _ _ h => h

end Sys2Proof.Machine
end


section
/-!
PROOFS. The Redo List's order (R98, R100): an entry takes its place among entries that lie near one another.
-/
namespace Sys2Proof.Machine

/-! ## The order of two redo entries -/

/-- An entry's place: its deadline and its creation, counted from a base each, epoch before serial. -/
def RedoEntry.key (base created : Epoch) (x : RedoEntry) : ℕ ×ₗ ℕ ×ₗ ℕ :=
  toLex ((x.deadline - base).val, toLex ((x.order.epoch - created).val, x.order.serial))

/-- Two epochs within 511 of a base compare as their distances from it. -/
theorem earlier_iff {base a b : Epoch} (ha : (a - base).val ≤ 511) (hb : (b - base).val ≤ 511) :
    earlier a b = true ↔ (a - base).val < (b - base).val := by
  simp only [earlier, decide_eq_true_eq]
  omega

theorem epoch_eq_iff {base a b : Epoch} : a = b ↔ (a - base).val = (b - base).val := by
  rw [Fin.val_inj, sub_left_inj]

/-- Within 511 epochs of the bases the order of R100 is the order of the keys. -/
theorem redoBefore_iff {base created : Epoch} {x y : RedoEntry}
    (hx : (x.deadline - base).val ≤ 511 ∧ (x.order.epoch - created).val ≤ 511)
    (hy : (y.deadline - base).val ≤ 511 ∧ (y.order.epoch - created).val ≤ 511) :
    redoBefore x y = true ↔ x.key base created < y.key base created := by
  simp only [redoBefore, createdBefore, Bool.or_eq_true, Bool.and_eq_true, beq_iff_eq, decide_eq_true_eq,
    earlier_iff hx.1 hy.1, earlier_iff hx.2 hy.2, RedoEntry.key, Prod.Lex.toLex_lt_toLex,
    epoch_eq_iff (base := base) (a := x.deadline), epoch_eq_iff (base := created) (a := x.order.epoch)]

/-- Every entry of a list lies within 511 epochs of the two bases. -/
def RedoWithin (base created : Epoch) (l : List RedoEntry) : Prop :=
  ∀ x ∈ l, (x.deadline - base).val ≤ 511 ∧ (x.order.epoch - created).val ≤ 511

/-- In an ordered list an entry takes one place: behind what it does not come before, ahead of all else. -/
theorem insertRedo_split {base created : Epoch} {e : RedoEntry} {l : List RedoEntry}
    (within : RedoWithin base created (e :: l))
    (ordered : l.Pairwise fun x y => x.key base created ≤ y.key base created) :
    ∃ l₁ l₂, l = l₁ ++ l₂ ∧ insertRedo e l = l₁ ++ e :: l₂ ∧
      (∀ x ∈ l₁, x.key base created ≤ e.key base created) ∧ ∀ y ∈ l₂, e.key base created < y.key base created := by
  induction l with
  | nil => exact ⟨[], [], rfl, rfl, by simp, by simp⟩
  | cons x xs ih =>
    obtain ⟨first, rest⟩ := List.pairwise_cons.mp ordered
    have compared := redoBefore_iff (within e (by simp)) (within x (by simp))
    unfold insertRedo
    split
    · next h =>
      have ahead := compared.mp h
      refine ⟨[], x :: xs, rfl, rfl, by simp, ?_⟩
      rintro y (_ | ⟨_, hy⟩)
      · exact ahead
      · exact ahead.trans_le (first y hy)
    · next h =>
      obtain ⟨l₁, l₂, split, inserted, behind, ahead⟩ := ih
        (fun y hy => within y (by simp only [List.mem_cons] at hy ⊢; tauto)) rest
      refine ⟨x :: l₁, l₂, by rw [split]; rfl, by rw [inserted]; rfl, ?_, ahead⟩
      rintro y (_ | ⟨_, hy⟩)
      · exact not_lt.mp fun lt => h (compared.mpr lt)
      · exact behind y hy

/-- Settles O18: the order of R100 is that of the keys, and an insertion splits the list at the entry's place. -/
theorem redoEntryTakesItsPlace : Obligations.RedoEntryTakesItsPlace := by
  intro base created e l within
  have lt_iff (x y : RedoEntry) : x.key base created < y.key base created ↔
      (x.deadline - base).val < (y.deadline - base).val ∨ (x.deadline - base).val = (y.deadline - base).val ∧
        ((x.order.epoch - created).val < (y.order.epoch - created).val ∨
          (x.order.epoch - created).val = (y.order.epoch - created).val ∧ x.order.serial < y.order.serial) := by
    simp only [RedoEntry.key, Prod.Lex.toLex_lt_toLex]
  refine ⟨fun x hx y hy => (redoBefore_iff (within x hx) (within y hy)).trans (lt_iff x y), fun ordered => ?_⟩
  obtain ⟨l₁, l₂, split, inserted, behind, ahead⟩ := insertRedo_split within
    (ordered.imp fun {x y} h => not_lt.mp fun lt => h ((lt_iff y x).mp lt))
  exact ⟨l₁, l₂, split, inserted, fun x hx h => (behind x hx).not_gt ((lt_iff e x).mpr h),
    fun y hy => (lt_iff e y).mp (ahead y hy)⟩

/-- An insertion keeps the Redo List's order among entries that lie near one another. -/
theorem insertRedo_ordered {base created : Epoch} {e : RedoEntry} {l : List RedoEntry}
    (within : RedoWithin base created (e :: l)) (ordered : l.Pairwise fun a b => redoBefore b a = false) :
    (insertRedo e l).Pairwise fun a b => redoBefore b a = false := by
  have le_iff {x y : RedoEntry} (hx : x ∈ e :: l) (hy : y ∈ e :: l) :
      redoBefore y x = false ↔ x.key base created ≤ y.key base created := by
    rw [← not_lt, ← redoBefore_iff (within y hy) (within x hx), Bool.not_eq_true]
  obtain ⟨l₁, l₂, split, inserted, behind, ahead⟩ := insertRedo_split within
    (ordered.imp_of_mem fun {x y} hx hy h => (le_iff (by simp [hx]) (by simp [hy])).mp h)
  rw [inserted]
  subst split
  obtain ⟨first, second, across⟩ := List.pairwise_append.mp ordered
  refine List.pairwise_append.mpr ⟨first, List.pairwise_cons.mpr ⟨fun y hy => ?_, second⟩, ?_⟩
  · exact (le_iff (by simp) (by simp [hy])).mpr (ahead y hy).le
  · rintro x hx y (_ | ⟨_, hy⟩)
    · exact (le_iff (by simp [hx]) (by simp)).mpr (behind x hx)
    · exact across x hx y hy

end Sys2Proof.Machine
end


section
/-!
PROOFS. What the acts do to the tracking state: the entry a failure or a return makes of a grant, and the laws of the
stores and of the Redo List's order.
-/
namespace Sys2Proof.Machine

/-! ## Failures and returns -/

/-- The redo entry that a failure makes of a grant (R95). -/
def failedEntry (g : OgtEntry) (s : State) : RedoEntry :=
  { context := g.context, direction := g.direction, width := g.width, height := g.height, grade := g.grade
    bytes := g.bytes, redoNumber := g.redoNumber + 1, origin := g.tag
    deadline := epochAfter (now s) s.config.redoDistance
    order := { epoch := now s, serial := s.tracking.serial } }

/-- The redo entry that a void makes of a redo grant (R91). -/
def returnedEntry (g : OgtEntry) (o : RedoOrigin) : RedoEntry :=
  { context := g.context, direction := g.direction, width := g.width, height := g.height, grade := g.grade
    bytes := g.bytes, redoNumber := g.redoNumber, origin := o.tag, deadline := o.deadline, order := o.order }

/-- A failure leaves the tracking state, or adds its entry to a list that was not full. -/
theorem failGrant_tracking (g : OgtEntry) (s : State) :
    (failGrant g s).tracking = s.tracking ∨
      s.tracking.redo.length < Config.redoDepth ∧
        (failGrant g s).tracking =
          { s.tracking with
            redo := insertRedo (failedEntry g s) s.tracking.redo
            serial := min 65535 (s.tracking.serial + 1) } := by
  unfold failGrant
  split
  · exact .inl (by simp)
  · split
    · exact .inl (by simp)
    · next room =>
      split
      · exact .inl (by simp)
      · exact .inr ⟨by simpa [redoFull] using room, by rw [addRedo_tracking]; rfl⟩

/-- A return leaves the tracking state, or adds its entry to a list that was not full. -/
theorem returnGrant_tracking (n : Epoch) (g : OgtEntry) (o : RedoOrigin) (s : State) :
    (returnGrant n g o s).tracking = s.tracking ∨
      s.tracking.redo.length < Config.redoDepth ∧
        (returnGrant n g o s).tracking =
          { s.tracking with redo := insertRedo (returnedEntry g o) s.tracking.redo } := by
  unfold returnGrant
  split
  · exact .inl (by simp)
  · split
    · exact .inl (by simp)
    · split
      · exact .inl (by simp)
      · next room => exact .inr ⟨by simpa [redoFull] using room, by rw [addRedo_tracking]; rfl⟩

@[simp] theorem dropOutstanding_tracking (i : Index) (s : State) : (dropOutstanding i s).tracking = s.tracking := by
  simp

/-- What a failure of an entry leaves of the OGT and the Batch Ring: its entry gone, every record as it was. -/
theorem failEntry_tracking (s : State) (g : OgtEntry) :
    (failEntry s g).tracking.ogt = s.tracking.ogt.filter (fun h => h.tag != g.tag) ∧
      (failEntry s g).tracking.ring = s.tracking.ring := by
  unfold failEntry
  rw [dropOutstanding_tracking]
  rcases failGrant_tracking g (removeGrant g.tag s) with h | ⟨_, h⟩ <;> rw [h] <;> exact ⟨rfl, rfl⟩

/-- Failures of a list of grants leave the entries whose tags are not theirs. -/
theorem foldl_failEntry_tracking (l : List OgtEntry) (s : State) :
    (l.foldl failEntry s).tracking.ogt = s.tracking.ogt.filter (fun h => l.all fun g => h.tag != g.tag) ∧
      (l.foldl failEntry s).tracking.ring = s.tracking.ring := by
  induction l generalizing s with
  | nil => simp
  | cons g l ih =>
    rw [List.foldl_cons, (ih _).1, (ih _).2, (failEntry_tracking s g).1, (failEntry_tracking s g).2]
    simp [List.filter_filter, Bool.and_comm]

theorem dropDeadlines_tracking (n : Epoch) (s : State) :
    (dropDeadlines n s).tracking =
      { s.tracking with redo := s.tracking.redo.filter fun e => !earlier e.deadline n } := by
  unfold dropDeadlines
  exact (foldl_keep State.tracking _ (by intros; simp) _ _).trans rfl

theorem acceptRelease_tracking (i : Index) (s : State) :
    (acceptRelease i s).tracking =
      { s.tracking with redo := s.tracking.redo.filter fun e => e.context != i } := by
  have removed : (releaseRedo i s).tracking =
      { s.tracking with redo := s.tracking.redo.filter fun e => e.context != i } := by simp [releaseRedo]
  unfold acceptRelease
  dsimp only
  split <;> simp [removed]

/-- A grant returns to its origin as an entry with `E`. -/
def OgtEntry.Returns (E : RedoEntry → Prop) (g : OgtEntry) : Prop := ∀ o, g.origin = some o → E (returnedEntry g o)

/-- The redo entries that a grant of the OGT can become have `E`: its failure now and its return to its origin. -/
def State.Admits (E : RedoEntry → Prop) (s : State) (g : OgtEntry) : Prop :=
  (∀ e : RedoEntry, e.deadline = epochAfter (now s) s.config.redoDistance → e.order.epoch = now s → E e) ∧
    g.Returns E

/-- A property of the Redo List that lasts when entries leave and when one with `E` joins a list not full. -/
structure RedoLaw (E : RedoEntry → Prop) (Q : List RedoEntry → Prop) : Prop where
  leave : ∀ l l', l'.Sublist l → Q l → Q l'
  join : ∀ e l, E e → l.length < Config.redoDepth → Q l → Q (insertRedo e l)

section RedoLaws

variable {E : RedoEntry → Prop} {Q : List RedoEntry → Prop}

theorem State.Admits.congr {s t : State} {g : OgtEntry} (h : s.Admits E g) (align : t.align = s.align)
    (config : t.config = s.config) : t.Admits E g := by
  have same : now t = now s := by simp [now, align]
  exact ⟨fun e => by rw [same, config]; exact h.1 e, h.2⟩

theorem RedoLaw.failGrant (law : RedoLaw E Q) {g : OgtEntry} {s : State} (admits : s.Admits E g)
    (h : Q s.tracking.redo) : Q (failGrant g s).tracking.redo := by
  rcases failGrant_tracking g s with eq | ⟨room, eq⟩ <;> rw [eq]
  · exact h
  · exact law.join _ _ (admits.1 _ rfl rfl) room h

theorem RedoLaw.returnGrant (law : RedoLaw E Q) {n : Epoch} {g : OgtEntry} {o : RedoOrigin} {s : State}
    (returns : g.Returns E) (origin : g.origin = some o) (h : Q s.tracking.redo) :
    Q (returnGrant n g o s).tracking.redo := by
  rcases returnGrant_tracking n g o s with eq | ⟨room, eq⟩ <;> rw [eq]
  · exact h
  · exact law.join _ _ (returns o origin) room h

theorem RedoLaw.failEntry (law : RedoLaw E Q) {g : OgtEntry} {s : State} (admits : s.Admits E g)
    (h : Q s.tracking.redo) : Q (failEntry s g).tracking.redo := by
  unfold Machine.failEntry
  rw [dropOutstanding_tracking]
  exact law.failGrant (admits.congr rfl rfl) h

theorem RedoLaw.voidEntry (law : RedoLaw E Q) {n : Epoch} {g : OgtEntry} {s : State} (returns : g.Returns E)
    (h : Q s.tracking.redo) : Q (voidEntry n s g).tracking.redo := by
  unfold Machine.voidEntry
  rw [dropOutstanding_tracking]
  cases origin : g.origin with
  | some o => exact law.returnGrant returns origin h
  | none =>
    have kept : Q (removeGrant g.tag s).tracking.redo := h
    simpa using kept

theorem RedoLaw.foldl_voidEntry (law : RedoLaw E Q) {n : Epoch} (l : List OgtEntry) {s : State}
    (returns : ∀ g ∈ l, g.Returns E) (h : Q s.tracking.redo) : Q (l.foldl (Machine.voidEntry n) s).tracking.redo := by
  induction l generalizing s with
  | nil => exact h
  | cons g l ih => exact ih (fun x hx => returns x (by simp [hx])) (law.voidEntry (returns g (by simp)) h)

theorem RedoLaw.foldl_failEntry (law : RedoLaw E Q) (l : List OgtEntry) {s : State}
    (admits : ∀ g ∈ l, s.Admits E g) (h : Q s.tracking.redo) : Q (l.foldl Machine.failEntry s).tracking.redo := by
  induction l generalizing s with
  | nil => exact h
  | cons g l ih =>
    exact ih (fun x hx => (admits x (by simp [hx])).congr (by simp) (by simp)) (law.failEntry (admits g (by simp)) h)

theorem RedoLaw.voidBatch (law : RedoLaw E Q) {n e : Epoch} {s : State}
    (returns : ∀ g ∈ s.tracking.ogt, g.Returns E) (h : Q s.tracking.redo) : Q (voidBatch n e s).tracking.redo := by
  have emptied := law.foldl_voidEntry (n := n) (s.tracking.ogt.filter fun g => g.tag.epoch == e)
    (fun g hg => returns g (List.mem_of_mem_filter hg)) h
  simpa [Machine.voidBatch] using emptied

theorem RedoLaw.expireGrants (law : RedoLaw E Q) {n : Epoch} {s : State}
    (admits : ∀ g ∈ s.tracking.ogt, s.Admits E g) (h : Q s.tracking.redo) : Q (expireGrants n s).tracking.redo :=
  law.foldl_failEntry _ (fun g hg => admits g (List.mem_of_mem_filter hg)) h

/-- The void of batches one after another, as the entry to HOLDING makes it. -/
theorem RedoLaw.foldl_voidBatch (law : RedoLaw E Q) (n : Epoch) (l : List Epoch) {s : State}
    (returns : ∀ g ∈ s.tracking.ogt, g.Returns E) (h : Q s.tracking.redo) :
    Q (l.foldl (fun t e => Machine.voidBatch n e t) s).tracking.redo := by
  induction l generalizing s with
  | nil => exact h
  | cons e l ih =>
    refine ih (fun g hg => returns g ?_) (law.voidBatch returns h)
    rw [(voidBatch_tracking ..).1] at hg
    exact List.mem_of_mem_filter hg

theorem RedoLaw.enterHolding (law : RedoLaw E Q) {s : State} (returns : ∀ g ∈ s.tracking.ogt, g.Returns E)
    (h : Q s.tracking.redo) : Q (enterHolding s).tracking.redo := by
  have aborted : (abortRun false s).tracking.ogt = s.tracking.ogt ∧
      (abortRun false s).tracking.redo = s.tracking.redo := by
    rw [abortRun_tracking]
    split <;> exact ⟨rfl, rfl⟩
  have voided : Q (voidAllSent (abortRun false s)).tracking.redo :=
    law.foldl_voidBatch _ _ (fun g hg => returns g (aborted.1 ▸ hg)) (aborted.2 ▸ h)
  simpa [Machine.enterHolding] using voided

/-- A Redo List with `Q`, of a part whose OGT admits no redo entry without `E`. -/
def State.Admitted (E : RedoEntry → Prop) (Q : List RedoEntry → Prop) (s : State) : Prop :=
  Q s.tracking.redo ∧ ∀ g ∈ s.tracking.ogt, s.Admits E g

theorem State.Admitted.of {s t : State} (h : s.Admitted E Q) (redo : Q t.tracking.redo)
    (ogt : ∀ g ∈ t.tracking.ogt, ∃ g' ∈ s.tracking.ogt, g'.origin = g.origin ∧
      ∀ o, returnedEntry g o = returnedEntry g' o)
    (align : t.align.epoch = s.align.epoch) (config : t.config = s.config) : t.Admitted E Q := by
  have same : now t = now s := by simp [now, align]
  refine ⟨redo, fun g hg => ?_⟩
  obtain ⟨g', mem, origin, entry⟩ := ogt g hg
  obtain ⟨fails, returns⟩ := h.2 g' mem
  exact ⟨fun e => by rw [same, config]; exact fails e, fun o ho => by
    rw [entry o]; exact returns o (origin.trans ho)⟩

/-- An act keeps the law of the Redo List. -/
theorem RedoLaw.change (law : RedoLaw E Q) {s t : State} (h : Change s t) (hs : s.Admitted E Q) : t.Admitted E Q := by
  have kept {u : State} (redo : Q u.tracking.redo) (ogt : u.tracking.ogt.Sublist s.tracking.ogt)
      (align : u.align.epoch = s.align.epoch) (config : u.config = s.config) : u.Admitted E Q :=
    hs.of redo (fun g hg => ⟨g, ogt.subset hg, rfl, fun _ => rfl⟩) align config
  obtain ⟨redo, admits⟩ := hs
  cases h with
  | report h remainder => rw [h.frame]; exact ⟨redo, admits⟩
  | release i attached =>
    refine kept ?_ ?_ (by simp) (by simp) <;> rw [acceptRelease_tracking]
    exact law.leave _ _ List.filter_sublist redo
  | expire tracking =>
    refine kept (law.expireGrants admits redo) ?_ (by simp) (by simp)
    rw [Machine.expireGrants, (foldl_failEntry_tracking ..).1]
    exact List.filter_sublist
  | void n e tracking =>
    refine kept (law.voidBatch (fun g hg => (admits g hg).2) redo) ?_ (by simp) (by simp)
    rw [(voidBatch_tracking ..).1]
    exact List.filter_sublist
  | drop n =>
    refine kept ?_ ?_ (by simp) (by simp) <;> rw [dropDeadlines_tracking]
    exact law.leave _ _ List.filter_sublist redo
  | fail g found =>
    refine kept (law.failEntry (admits g (List.mem_of_find?_eq_some found)) redo) ?_ (by simp) (by simp)
    rw [(failEntry_tracking ..).1]
    exact List.filter_sublist
  | settle g found =>
    refine kept ?_ ?_ (by simp) (by simp) <;> rw [dropOutstanding_tracking]
    · exact redo
    · exact List.filter_sublist
  | commit e target sent =>
    refine State.Admitted.of ⟨redo, admits⟩ redo (fun g hg => ?_) rfl rfl
    obtain ⟨g', mem, rfl⟩ := List.mem_map.mp hg
    refine ⟨g', mem, ?_, fun o => ?_⟩ <;> split <;> rfl
  | abort b =>
    refine kept ?_ ?_ (by simp) (by simp) <;> rw [abortRun_tracking] <;> split
    · exact redo
    · exact redo
    · exact List.Sublist.refl _
    · exact List.Sublist.refl _
  | empty =>
    refine kept ?_ ?_ (by simp) (by simp) <;> rw [emptyTracking_tracking]
    · exact law.leave _ _ (List.nil_sublist _) redo
    · exact List.nil_sublist _
  | relisten configured idle ring ogt none =>
    exact ⟨redo, fun g hg => by simp [ogt] at hg⟩
  | start target m operating =>
    exact kept (by simpa using redo) (by simp) (by simp) (by simp)
  | align a station epoch opState => exact kept redo (List.Sublist.refl _) epoch rfl
  | work | line | freeValue | fifo | queue | bus | events | contexts | attach | timeout | hold | engine | edge | power
  | peers => exact ⟨redo, admits⟩

theorem RedoLaw.changes (law : RedoLaw E Q) {s t : State} (h : Changes s t) (hs : s.Admitted E Q) : t.Admitted E Q :=
  h.keeps (fun _ _ => law.change) hs

end RedoLaws

end Sys2Proof.Machine
end


section
/-!
PROOFS. The laws of the stores and of the Redo List's order, kept by every step.
-/
namespace Sys2Proof.Machine

/-! ## The stores -/

theorem redoBounded_redoLaw : RedoLaw (fun _ => True) fun l => l.length ≤ Config.redoDepth where
  leave := fun _ _ sub h => sub.length_le.trans h
  join := fun e l _ room _ => by rw [insertRedo_length]; exact room

theorem admitted_true {Q : List RedoEntry → Prop} {s : State} (h : Q s.tracking.redo) :
    s.Admitted (fun _ => True) Q :=
  ⟨h, fun _ _ => ⟨fun _ _ _ => trivial, fun _ _ => trivial⟩⟩

@[simp] theorem handedOff_redo (r : Run) (s : State) :
    (handedOff r s).tracking.redo =
      s.tracking.redo.filter fun e => !(consumedTags (deliveredGrants s r)).contains e.origin := by
  simp [handedOff, consumeRedo, enterBatch]

@[simp] theorem completeRun_redo (r : Run) (s : State) :
    (completeRun r s).tracking.redo =
      s.tracking.redo.filter fun e => !(consumedTags (deliveredGrants s r)).contains e.origin := by
  rw [completeRun_eq, ← handedOff_redo]
  simp [planQueued]

/-- The depths of the outbound queue and of the Redo List (R98, R163). -/
theorem storesBounded_law : Law State.StoresBounded where
  change := by
    intro s t h ⟨queue, redo⟩
    refine ⟨?_, (redoBounded_redoLaw.change h (admitted_true redo)).1⟩
    rcases h.tells with told | ⟨l, _, _, hq, rfl⟩ | ⟨l, _, rfl⟩ | ⟨q, o, room, rfl⟩ | ⟨e, _, _, _, _, rfl⟩
    · exact told.room queue
    · exact hq ▸ queue
    · exact queue
    · exact room queue
    · exact queue
  epoch := fun _ _ h => h
  restate := fun _ _ h => ⟨h.1, by simpa [restateTracking] using h.2⟩
  reset := fun _ _ => ⟨Nat.zero_le _, Nat.zero_le _⟩
  config := by
    intro b s _ held ⟨queue, redo⟩
    refine ⟨?_, by simpa using redo⟩
    have free : ¬Config.outboundDepth - s.link.queue.length ≤ Config.replyReserve := by
      simpa [isHeld, needsReply, LinkPort.outboundFree] using held
    simp only [Config.outboundDepth, Config.replyReserve] at free
    simp only [acceptConfig, reply_link, List.length_append, List.length_singleton,
      Config.outboundDepth]
    omega
  idle := fun s h => by simpa [State.StoresBounded] using h
  complete := by
    intro r s _ fits ⟨queue, redo⟩
    refine ⟨(completeRun_told r s).room ?_, ?_⟩
    · have fits := of_decide_eq_true fits
      simp only [LinkPort.outboundFree, Config.outboundDepth] at fits
      simp only [planQueued, handedOff_link, LinkPort.enqueue, List.length_append, List.length_singleton,
        Config.outboundDepth]
      omega
    · rw [completeRun_redo]
      exact (List.length_filter_le _ _).trans redo
  pending := fun _ _ h => h

end Sys2Proof.Machine
end


section
/-!
PROOFS. The Redo List's order at every step: what a pulse does to the current epoch and, at a MARK, to the tracking
state.
-/
namespace Sys2Proof.Machine

/-! ## The epoch count during a pulse's work -/

@[simp] theorem holdIfOperating_epoch (s : State) : (holdIfOperating s).align.epoch = s.align.epoch := by
  unfold holdIfOperating
  split
  · rw [(enterHolding_writes s).2.2.2]
  · rfl

@[simp] theorem testListening_epoch (s : State) : (testListening s).align.epoch = s.align.epoch := by
  unfold testListening
  split
  · simp [enterOperating, foldl_excludePeer_align]
  · rfl

/-- A part of a pulse's work leaves the epoch count. -/
@[simp] theorem takeTask_epoch (s : State) (t : PulseTask) : (takeTask s t).align.epoch = s.align.epoch := by
  cases t with
  | entry => simp only [takeTask, takeEntry]; split <;> simp
  | decide => simp only [takeTask, takeDecide]; split <;> simp
  | announce | ability => simp only [takeTask, whenHearing]; split <;> (try split) <;> simp
  | start | counts | timeouts | dormancy | ageing | stale | absent | batchVoid | grantExpiry | redoDrop | holdDown
  | update => simp [takeTask]

@[simp] theorem takeTasks_epoch (l : List PulseTask) (s : State) : (takeTasks l s).align.epoch = s.align.epoch :=
  foldl_keep (fun t : State => t.align.epoch) takeTask takeTask_epoch l s

@[simp] theorem finishPulse_epoch (s : State) : (finishPulse s).align.epoch = s.align.epoch := by
  unfold finishPulse
  split
  · simp only [takeTasks_epoch]
  · rfl

@[simp] theorem judgeWatch_epoch (interval : Nat) (s : State) :
    (judgeWatch interval s).align.epoch = s.align.epoch := by
  unfold judgeWatch
  (repeat' split) <;> simp [setPeriod]

@[simp] theorem listenPulse_epoch (s : State) : (listenPulse s).align.epoch = s.align.epoch := by
  unfold listenPulse
  split <;> simp

/-! ## The work of a MARK leaves what is tracked -/

/-- No part of the work that writes the tracking state is due. -/
def PulseWork.sparesTracking (w : PulseWork) : Bool :=
  !w.entry && !w.start && !w.batchVoid && !w.grantExpiry && !w.redoDrop

theorem takeTask_sparesTracking {s : State} (h : s.pulse.sparesTracking = true) (t : PulseTask) :
    (takeTask s t).pulse.sparesTracking = true ∧ (takeTask s t).tracking = s.tracking := by
  simp only [PulseWork.sparesTracking, Bool.and_eq_true, Bool.not_eq_true'] at h ⊢
  obtain ⟨⟨⟨⟨entry, start⟩, void⟩, expiry⟩, drop⟩ := h
  cases t with
  | entry => simp [takeTask, takeEntry, entry, start, void, expiry, drop]
  | start => simp [takeTask, takeStart, entry, start, void, expiry, drop]
  | batchVoid => simp [takeTask, takeVoid, entry, start, void, expiry, drop]
  | grantExpiry => simp [takeTask, takeExpiry, entry, start, void, expiry, drop]
  | redoDrop => simp [takeTask, takeDrop, entry, start, void, expiry, drop]
  | decide => simp only [takeTask, takeDecide]; split <;> simp [entry, start, void, expiry, drop]
  | counts => simp only [takeTask, takeCounts]; split <;> simp [entry, start, void, expiry, drop]
  | ageing => simp only [takeTask, takeAgeing]; split <;> simp [entry, start, void, expiry, drop]
  | holdDown =>
    simp only [takeTask, takeHoldDown]; split <;> (try split) <;>
      simp [entry, start, void, expiry, drop]
  | update =>
    simp only [takeTask, takeUpdate, takeHoldDown]; (repeat' split) <;>
      simp_all
  | announce | ability =>
    simp only [takeTask, whenHearing]; split <;> (try split) <;> simp [entry, start, void, expiry, drop]
  | timeouts | dormancy | stale | absent => simp [takeTask, entry, start, void, expiry, drop]

theorem takeTasks_sparesTracking (l : List PulseTask) {s : State} (h : s.pulse.sparesTracking = true) :
    (takeTasks l s).pulse.sparesTracking = true ∧ (takeTasks l s).tracking = s.tracking := by
  induction l generalizing s with
  | nil => exact ⟨h, rfl⟩
  | cons t l ih =>
    obtain ⟨spares, kept⟩ := takeTask_sparesTracking h t
    exact ⟨(ih spares).1, (ih spares).2.trans kept⟩

theorem markArrives_sparesTracking (interval : Nat) (s : State) :
    (markArrives interval s).pulse.sparesTracking = true := by
  simp [markArrives, markWork, PulseWork.none, PulseWork.sparesTracking]

/-! ## The order is kept -/

/-- The deadline and the creation of an entry lie from 200 epochs before an epoch to 220 after it. -/
def RedoEntry.NearTo (n : Epoch) (e : RedoEntry) : Prop :=
  (e.deadline - (n - 200)).val ≤ 420 ∧ (e.order.epoch - (n - 200)).val ≤ 420

/-- Redo entries near an epoch, in order. -/
def OrderedNear (n : Epoch) (l : List RedoEntry) : Prop :=
  (∀ e ∈ l, e.NearTo n) ∧ l.Pairwise fun a b => redoBefore b a = false

theorem orderedNear_redoLaw (n : Epoch) : RedoLaw (RedoEntry.NearTo n) (OrderedNear n) where
  leave := fun _ _ sub h => ⟨fun e he => h.1 e (sub.subset he), h.2.sublist sub⟩
  join := by
    intro e l near _ ⟨all, ordered⟩
    have inserted : ∀ x ∈ e :: l, x.NearTo n := List.forall_mem_cons.mpr ⟨near, all⟩
    refine ⟨fun x hx => inserted x ((insertRedo_perm e l).mem_iff.mp hx), ?_⟩
    exact insertRedo_ordered (base := n - 200) (created := n - 200)
      (fun x hx => ⟨(inserted x hx).1.trans (by decide), (inserted x hx).2.trans (by decide)⟩) ordered

/-- A failure at an epoch or at the next makes an entry near it. -/
theorem nearTo_failed {n m : Epoch} {d : Nat} {e : RedoEntry} (hm : m = n ∨ m = n + 1) (hd : d ≤ 16)
    (deadline : e.deadline = epochAfter m d) (created : e.order.epoch = m) : e.NearTo n := by
  unfold RedoEntry.NearTo
  rw [deadline, created]
  have small : (Fin.ofNat 1024 d).val = d := Nat.mod_eq_of_lt (by omega)
  unfold epochAfter
  generalize Fin.ofNat 1024 d = k at small
  subst small
  rcases hm with rfl | rfl <;> omega

/-- What the premise of R100 gives: the lists are near the current epoch, and failures at it or the next stay so. -/
def State.OrderedAt (n : Epoch) (s : State) : Prop :=
  OrderedNear n s.tracking.redo ∧ (∀ g ∈ s.tracking.ogt, g.Returns (RedoEntry.NearTo n)) ∧ s.config.redoDistance ≤ 16

theorem State.OrderedAt.admitted {n : Epoch} {s : State} (h : s.OrderedAt n) (hn : now s = n ∨ now s = n + 1) :
    s.Admitted (RedoEntry.NearTo n) (OrderedNear n) :=
  ⟨h.1, fun g hg => ⟨fun _ => nearTo_failed hn h.2.2, h.2.1 g hg⟩⟩

theorem State.OrderedAt.of_changes {n : Epoch} {s t : State} (h : s.OrderedAt n) (hn : now s = n ∨ now s = n + 1)
    (c : Changes s t) (config : t.config = s.config) : t.OrderedAt n := by
  obtain ⟨redo, admits⟩ := (orderedNear_redoLaw n).changes c (h.admitted hn)
  exact ⟨redo, fun g hg => (admits g hg).2, config ▸ h.2.2⟩

theorem State.OrderedAt.of_tracking {n : Epoch} {s t : State} (h : s.OrderedAt n)
    (redo : t.tracking.redo = s.tracking.redo) (ogt : t.tracking.ogt = s.tracking.ogt) (config : t.config = s.config) :
    t.OrderedAt n := by
  unfold State.OrderedAt
  rw [redo, ogt, config]
  exact h

theorem orderedAt_of_near {s : State} (near : s.RedoEpochsNear) (ordered : s.RedoOrdered) : s.OrderedAt (now s) := by
  have widen {e : Epoch} (h : s.Near e) : (e - (now s - 200)).val ≤ 420 := by
    unfold State.Near at h
    omega
  obtain ⟨redo, ogt, distance⟩ := near
  exact ⟨⟨fun e he => ⟨widen (redo e he).1, widen (redo e he).2⟩, ordered⟩,
    fun g hg o ho => ⟨widen (ogt g hg o ho).1, widen (ogt g hg o ho).2⟩, distance⟩

/-- The restating of the deadlines keeps their order: each pair keeps its distance (R101). -/
theorem restateTracking_ordered {p : Epoch} {s : State} (h : s.RedoOrdered) : (restateTracking p s).RedoOrdered := by
  have shifted (a b : Epoch) : restated p a - restated p b = a - b := by simp [restated]
  have shifted_iff (a b : Epoch) : restated p a = restated p b ↔ a = b := by simp [restated]
  refine List.pairwise_map.mpr (h.imp fun {a b} hab => ?_)
  rw [← hab]
  simp only [redoBefore, createdBefore, earlier, shifted, beq_eq_decide, shifted_iff]

/-- An EPOCH pulse keeps the Redo List's order: its work is that of the next epoch. -/
theorem epochPulse_ordered {n : Epoch} {s : State} (interval : Nat) (order : List PulseTask) (h : s.OrderedAt n)
    (hn : now s = n) : (takeTasks order (pulseArrives interval s)).RedoOrdered := by
  have counted : now (pulseArrives interval s) = n ∨ now (pulseArrives interval s) = n + 1 := by
    have count : (pulseArrives interval s).align.epoch = s.align.epoch.map (· + 1) := by
      simp [pulseArrives]
    subst hn
    unfold now
    rw [count]
    cases s.align.epoch <;> simp
  have arrived : (pulseArrives interval s).OrderedAt n :=
    h.of_tracking (by simp [pulseArrives]) (by simp [pulseArrives]) (by simp)
  exact (arrived.of_changes counted (takeTasks_changes _ _) (by simp)).1.2

/-- A MARK pulse keeps the Redo List's order: an entry to HOLDING returns grants to their origins, an emptying leaves
none, a restating keeps distances, and the rest of its work leaves what is tracked. -/
theorem markPulse_ordered {n : Epoch} {s : State} (interval : Nat) (order : List PulseTask) (h : s.OrderedAt n) :
    (takeTasks order (markArrives interval s)).RedoOrdered := by
  have judged (t : State) : (judgeBus (judgeWatch interval t)).tracking = t.tracking := by simp
  have effect (p : Epoch) {t : State} (ht : t.RedoOrdered) : (markEffect p t).RedoOrdered := by
    unfold markEffect
    split
    · simp [State.RedoOrdered, recoverMarker]
    · split
      · simp [State.RedoOrdered, leaveHolding]
      · exact restateTracking_ordered ht
    · exact ht
    · exact ht
  unfold State.RedoOrdered
  rw [(takeTasks_sparesTracking order (markArrives_sparesTracking interval s)).2]
  simp only [markArrives, openPulse_keeps, listenPulse_keeps]
  refine effect _ ?_
  simp only [State.RedoOrdered, countContexts_keeps]
  split
  · unfold holdIfOperating
    split
    · refine ((orderedNear_redoLaw n).enterHolding ?_ ?_).2
      · simpa [judged] using h.2.1
      · simpa [judged] using h.1
    · simpa [judged] using h.1.2
  · simpa [judged] using h.1.2

/-- Settles O60: failures make entries near the current epoch and returns restore origins near it, each of which
takes its place in order; a MARK restates by one distance. -/
theorem stepKeepsRedoOrdered : Obligations.StepKeepsRedoOrdered := by
  intro s t near ordered h
  have start := orderedAt_of_near near ordered
  unfold Machine.step at h
  split at h
  · cases h; exact ordered
  next c rest _ =>
    have start : ({ s with pending := rest } : State).OrderedAt (now s) := start
    have epoch : now { s with pending := rest } = now s := rfl
    generalize ({ s with pending := rest } : State) = u at start epoch h
    have acted {v : State} (hv : Changes u v) : v.RedoOrdered :=
      ((orderedNear_redoLaw _).changes hv (start.admitted (.inl epoch))).1.2
    have finished : (finishPulse u).OrderedAt (now s) :=
      start.of_changes (.inl epoch) (finishPulse_changes u) (by simp)
    have count : now (finishPulse u) = now s := by rw [← epoch]; simp [now]
    cases exec_runs h with
    | acts h => exact acted h
    | reset => exact List.Pairwise.nil
    | configured hu => simpa [State.RedoOrdered] using acted hu
    | idleLine hu => simpa [State.RedoOrdered] using acted hu
    | completed hu run room =>
      unfold State.RedoOrdered
      rw [completeRun_redo]
      exact (acted hu).filter _
    | @pulse interval order =>
      cases h
      dsimp only
      split
      · exact finished.1.2
      · exact epochPulse_ordered interval _ finished count
    | @mark interval order =>
      cases h
      dsimp only
      split
      · exact finished.1.2
      · exact markPulse_ordered interval _ finished

end Sys2Proof.Machine
end


section
/-!
PROOFS. What the acts do to the contexts: a context leaves FREE by ATTACH alone, and its figures stay in range.
-/
namespace Sys2Proof.Machine

/-- A context after a release is accepted: CLOSING while grants are outstanding, and FREE without one (R17). -/
theorem ctx_acceptRelease (i j : Index) (s : State) :
    ctx (acceptRelease i s) j =
      if j = i then
        if 0 < (ctx s i).outstanding then { ctx s i with state := .closing, dlBacklog := 0, ulBacklog := 0 }
        else (ctx s i).freed
      else ctx s j := by
  unfold acceptRelease
  dsimp only
  by_cases hj : j = i
  · subst hj
    split <;> simp_all [Context.freed]
  · split <;> simp [hj, ctx_setCtx]

/-! ## Contexts that follow -/

/-- A FREE context stays FREE and figures in range stay in range. -/
structure Context.Follows (c d : Context) : Prop where
  free : c.state = .free → d.state = .free
  figures : c.FiguresBounded → d.FiguresBounded

theorem Context.Follows.refl (c : Context) : c.Follows c := ⟨id, id⟩

theorem Context.Follows.trans {a b c : Context} (h : a.Follows b) (g : b.Follows c) : a.Follows c :=
  ⟨g.free ∘ h.free, g.figures ∘ h.figures⟩

theorem Context.Touches.follows {c d : Context} (h : c.Touches d) : c.Follows d := ⟨h.free.mpr, h.figures⟩

theorem Context.follows_freed (c : Context) : c.Follows c.freed :=
  ⟨fun _ => rfl, fun _ => ⟨Nat.zero_le _, Nat.zero_le _, Nat.zero_le _, Nat.zero_le _⟩⟩

theorem Context.follows_withBacklog (c : Context) (d : Direction) {n : Nat}
    (h : c.FiguresBounded → n ≤ Config.backlogMax) : c.Follows (c.withBacklog d n) := by
  cases d
  · exact ⟨id, fun b => ⟨h b, b.2⟩⟩
  · exact ⟨id, fun b => ⟨b.1, h b, b.2.2⟩⟩

/-- Every context follows from `s` to `t`. -/
structure ContextsFollow (s t : State) : Prop where
  context : ∀ i, (ctx s i).Follows (ctx t i)

theorem ContextsFollow.refl (s : State) : ContextsFollow s s := ⟨fun _ => .refl _⟩

theorem ContextsFollow.trans {s t u : State} (h : ContextsFollow s t) (g : ContextsFollow t u) : ContextsFollow s u :=
  ⟨fun i => (h.context i).trans (g.context i)⟩

theorem ContextsFollow.of_eq {s t : State} (h : t.contexts = s.contexts) : ContextsFollow s t :=
  ⟨fun i => by rw [ctx_congr h]; exact .refl _⟩

theorem foldl_follow {α : Type} {f : State → α → State} (h : ∀ s a, ContextsFollow s (f s a)) (l : List α) (s : State) :
    ContextsFollow s (l.foldl f s) := by
  induction l generalizing s with
  | nil => exact .refl s
  | cons a l ih => exact (h s a).trans (ih _)

theorem setCtx_follow {i : Index} {c : Context} {s : State} (h : (ctx s i).Follows c) :
    ContextsFollow s (setCtx i c s) := by
  refine ⟨fun j => ?_⟩
  rw [ctx_setCtx]
  split
  · next hj => exact hj ▸ h
  · exact .refl _

theorem dropOutstanding_follow (i : Index) (s : State) : ContextsFollow s (dropOutstanding i s) := by
  refine ⟨fun j => ?_⟩
  rw [ctx_dropOutstanding]
  split
  · next hj =>
    subst hj
    split
    · exact Context.follows_freed _
    · exact ⟨id, id⟩
  · exact .refl _

theorem charge_follow (i : Index) (d : Direction) (n : Nat) (s : State) : ContextsFollow s (charge i d n s) := by
  unfold charge
  dsimp only
  split
  · refine setCtx_follow (Context.follows_withBacklog _ d fun b => (Nat.sub_le _ _).trans ?_)
    cases d
    · exact b.1
    · exact b.2.1
  · exact .refl s

theorem refund_follow (i : Index) (d : Direction) (n : Nat) (s : State) : ContextsFollow s (refund i d n s) := by
  have written := setCtx_follow (s := s) (i := i)
    (Context.follows_withBacklog (ctx s i) d (n := min Config.backlogMax ((ctx s i).backlog d + n))
      fun _ => Nat.min_le_left _ _)
  unfold refund
  dsimp only
  split
  · split
    · exact written.trans (.of_eq rfl)
    · exact written
  · exact .refl s

theorem failEntry_follow (s : State) (g : OgtEntry) : ContextsFollow s (failEntry s g) :=
  (ContextsFollow.of_eq (t := failGrant g (removeGrant g.tag s)) (by simp)).trans (dropOutstanding_follow ..)

theorem voidEntry_follow (n : Epoch) (s : State) (g : OgtEntry) : ContextsFollow s (voidEntry n s g) := by
  have removed : ContextsFollow s (removeGrant g.tag s) := .of_eq rfl
  unfold voidEntry
  refine .trans ?_ (dropOutstanding_follow ..)
  cases g.origin with
  | some o => exact removed.trans (.of_eq (by simp))
  | none => exact removed.trans (refund_follow ..)

theorem voidBatch_follow (n e : Epoch) (s : State) : ContextsFollow s (voidBatch n e s) := by
  have emptied := foldl_follow (voidEntry_follow n) (s.tracking.ogt.filter fun g => g.tag.epoch == e) s
  exact emptied.trans (.of_eq (by simp [voidBatch]))

theorem acceptRelease_follow {i : Index} {s : State} (h : (ctx s i).state.attached = true) :
    ContextsFollow s (acceptRelease i s) := by
  refine ⟨fun j => ?_⟩
  rw [ctx_acceptRelease]
  split
  · next hj =>
    subst hj
    split
    · exact ⟨fun hf => by simp [hf, ContextState.attached] at h, fun b => ⟨Nat.zero_le _, Nat.zero_le _, b.2.2⟩⟩
    · exact Context.follows_freed _
  · exact .refl _

theorem emptyTracking_follow (s : State) : ContextsFollow s (emptyTracking s) := by
  refine ⟨fun i => ?_⟩
  rw [ctx_emptyTracking]
  split
  · exact Context.follows_freed _
  · exact ⟨id, id⟩

/-- Every act but an ATTACH makes every context follow. -/
theorem Change.follow {s t : State} (h : Change s t) :
    ContextsFollow s t ∨ ∃ i ident cls weight rtd, s.align.opState ≠ .unconfigured ∧ (ctx s i).state = .free ∧
      attachedCount s < s.config.maxSubscribers ∧ t = setCtx i ((ctx s i).attached ident cls weight rtd) s := by
  cases h with
  | report h _ => exact .inl (.of_eq (by rw [h.frame]))
  | contexts u touches => exact .inl ⟨fun i => (touches i).follows⟩
  | attach i ident cls weight rtd configured free room =>
    exact .inr ⟨i, ident, cls, weight, rtd, configured, free, room, rfl⟩
  | timeout i _ => exact .inl (setCtx_follow (Context.follows_freed _))
  | release i attached => exact .inl (acceptRelease_follow attached)
  | expire => exact .inl (foldl_follow failEntry_follow _ _)
  | void n e => exact .inl (voidBatch_follow ..)
  | drop n => exact .inl (.of_eq (by simp))
  | fail g => exact .inl (failEntry_follow ..)
  | settle g =>
    have removed : ContextsFollow s (removeGrant g.tag s) := .of_eq rfl
    exact .inl (removed.trans (dropOutstanding_follow ..))
  | abort b => exact .inl (.of_eq (by simp))
  | empty => exact .inl (emptyTracking_follow _)
  | start e m => exact .inl (.of_eq (by simp))
  | commit | hold | engine | relisten | edge | power | align | peers | work | line | freeValue | fifo | queue | bus
  | events => exact .inl (.of_eq rfl)

theorem completeRun_follow (r : Run) (s : State) : ContextsFollow s (completeRun r s) := by
  rw [completeRun_eq]
  have averaged (t : State) : ContextsFollow t (updateAverages r.target (deliveredGrants s r) r.snapshot t) := by
    refine foldl_follow (fun u c => ?_) _ _
    exact setCtx_follow ⟨id, fun b => ⟨b.1, b.2.1, Nat.min_le_left _ _, Nat.min_le_left _ _⟩⟩
  have charged (t : State) : ContextsFollow t (chargeGrants (deliveredGrants s r) t) :=
    foldl_follow (fun _ _ => charge_follow ..) _ _
  have raised (t : State) : ContextsFollow t (raiseOutstanding (deliveredGrants s r) t) := by
    refine foldl_follow (fun u p => ?_) _ _
    exact setCtx_follow ⟨id, id⟩
  have entered : ContextsFollow s (enterBatch r.target (deliveredGrants s r) (discardRun s)) := .of_eq rfl
  have consumed (t : State) : ContextsFollow t (consumeRedo (deliveredGrants s r) t) := .of_eq rfl
  have handed : ContextsFollow s (handedOff r s) :=
    (entered.trans ((raised _).trans ((charged _).trans ((consumed _).trans (averaged _))))).trans (.of_eq rfl)
  exact handed.trans (.of_eq (by simp [planQueued]))

/-! ## What stands from act to act -/

/-- Configuration, station, deferral generator and enables stand, and the cut-off state and the configured states, once
entered, last. -/
structure Stands (s t : State) : Prop where
  config : t.config = s.config
  station : t.align.station = s.align.station
  generator : t.bus.generator = s.bus.generator
  settings : t.events.enables = s.events.enables ∧ t.events.levels = s.events.levels ∧
    t.events.threshold = s.events.threshold
  cutOff : s.bus.cutOff = true → t.bus.cutOff = true
  configured : s.align.opState ≠ .unconfigured → t.align.opState ≠ .unconfigured

theorem Stands.refl (s : State) : Stands s s := ⟨rfl, rfl, rfl, ⟨rfl, rfl, rfl⟩, id, id⟩

theorem Stands.trans {s t u : State} (h : Stands s t) (g : Stands t u) : Stands s u where
  config := g.config.trans h.config
  station := g.station.trans h.station
  generator := g.generator.trans h.generator
  settings := ⟨g.settings.1.trans h.settings.1, g.settings.2.1.trans h.settings.2.1,
    g.settings.2.2.trans h.settings.2.2⟩
  cutOff := g.cutOff ∘ h.cutOff
  configured := g.configured ∘ h.configured

/-- A frame that becomes due draws nothing and leaves the cut-off state. -/
theorem frameDue_line (f : BusFrame) (s : State) :
    (frameDue f s).bus.generator = s.bus.generator ∧ (frameDue f s).bus.cutOff = s.bus.cutOff := by
  unfold frameDue
  split
  · simp
  · split <;> exact ⟨rfl, rfl⟩

theorem abortRun_line (b : Bool) (s : State) :
    (abortRun b s).bus.generator = s.bus.generator ∧ (abortRun b s).bus.cutOff = s.bus.cutOff := by
  unfold abortRun
  split
  · simp only [abortTarget, advance_keeps, setEvent_keeps]
    split
    · rw [(frameDue_line ..).1, (frameDue_line ..).2]
      exact ⟨rfl, rfl⟩
    · exact ⟨rfl, rfl⟩
  · exact ⟨rfl, rfl⟩

theorem Change.settings {s t : State} (h : Change s t) :
    t.events.enables = s.events.enables ∧ t.events.levels = s.events.levels ∧
      t.events.threshold = s.events.threshold := by
  rcases h.tells with told | ⟨l, _, _, _, rfl⟩ | ⟨l, _, rfl⟩ | ⟨q, o, _, rfl⟩ | ⟨e, settings, _, _, _, rfl⟩
  · exact told.settings
  · exact ⟨rfl, rfl, rfl⟩
  · exact ⟨rfl, rfl, rfl⟩
  · exact ⟨rfl, rfl, rfl⟩
  · exact settings

theorem Change.stands {s t : State} (h : Change s t) : Stands s t := by
  have settings := h.settings
  cases h with
  | report h _ => rw [h.frame] at settings ⊢; exact ⟨rfl, rfl, rfl, settings, id, id⟩
  | bus b generator cutOff => exact ⟨rfl, rfl, generator, settings, cutOff, id⟩
  | hold operating _ => exact ⟨rfl, rfl, rfl, settings, id, fun _ => by simp⟩
  | relisten configured => exact ⟨rfl, rfl, rfl, settings, id, fun _ => by simp [Alignment.listeningEntry]⟩
  | align a station epoch opState =>
    refine ⟨rfl, station, rfl, settings, id, fun h => ?_⟩
    rcases opState with ⟨same, _⟩ | ⟨_, operating⟩
    · exact same ▸ h
    · simp [operating]
  | abort b =>
    exact ⟨by simp, by simp, (abortRun_line b s).1, settings, (abortRun_line b s).2.symm ▸ id, by simp⟩
  | release | expire | void | drop | fail | settle | empty | start =>
    exact ⟨by simp, by simp, by simp, settings, by simp, by simp⟩
  | attach | timeout | commit | contexts | engine | edge | power | peers | work | line | freeValue | fifo | queue
  | events => exact ⟨rfl, rfl, rfl, settings, id, id⟩

theorem Changes.stands {s t : State} (h : Changes s t) : Stands s t :=
  h.keeps (P := Stands s) (fun _ _ c g => g.trans c.stands) (.refl s)

theorem Arrivals.stands {s t : State} (h : Arrivals s t) : Stands s t := by
  refine h.keeps (P := Stands s) (fun u v c g => g.trans ?_) (.refl s)
  cases c with
  | change c => exact c.stands
  | epoch | restate => exact ⟨rfl, rfl, rfl, ⟨rfl, rfl, rfl⟩, id, id⟩

theorem completeRun_stands (r : Run) (s : State) : Stands s (completeRun r s) := by
  have told := (completeRun_told r s).settings
  have line : (completeRun r s).bus.generator = s.bus.generator ∧ (completeRun r s).bus.cutOff = s.bus.cutOff := by
    have handed : (handedOff r s).bus = s.bus := by simp [handedOff]
    rw [completeRun_eq]
    simp only [advance_keeps, (frameDue_line ..).1, (frameDue_line ..).2, planQueued, handed, and_self]
  exact ⟨by simp, by simp, line.1, by simpa [planQueued] using told, line.2.symm ▸ id, by simp⟩

end Sys2Proof.Machine
end


section
/-!
PROOFS. The laws of bounds, of the settings, and of the number of attached contexts.
-/
namespace Sys2Proof.Machine

/-! ## The settings -/

theorem idleDetected_stands (s : State) :
    (idleDetected s).bus.cutOff = s.bus.cutOff ∧ (idleDetected s).align = s.align ∧
      (idleDetected s).events = s.events ∧ (idleDetected s).config = s.config := by
  refine ⟨?_, by simp, by simp, by simp⟩
  have deferred (b : BusPort) (e n : Nat) : (b.defers e n).cutOff = b.cutOff := by
    unfold BusPort.defers
    split <;> rfl
  unfold idleDetected
  split
  · dsimp only
    split
    · unfold BusPort.idleLine
      split <;> simp [deferred]
    · simp
  · rfl

/-- Settles O24: the acts leave the settings, and only HARD_RESET, CONFIG and an idle line have acts of their own that
write them. -/
theorem settingsChangeByTheirCommandsAlone : Obligations.SettingsChangeByTheirCommandsAlone := by
  intro c s t h notReset
  have stood {u : State} (g : Stands s u) : u.align.station = s.align.station ∧
      (((∀ b, c ≠ .config b) ∨ s.align.opState ≠ .unconfigured) →
        u.config = s.config ∧ u.events.enables = s.events.enables ∧ u.events.levels = s.events.levels ∧
          u.events.threshold = s.events.threshold) ∧
      (c ≠ .busIdleDetected → u.bus.generator = s.bus.generator) ∧ (s.bus.cutOff = true → u.bus.cutOff = true) ∧
      (s.align.opState ≠ .unconfigured → u.align.opState ≠ .unconfigured) :=
    ⟨g.station, fun _ => ⟨g.config, g.settings⟩, fun _ => g.generator, g.cutOff, g.configured⟩
  cases exec_runs h with
  | acts h => exact stood h.stands
  | reset station => exact absurd rfl (notReset station)
  | @configured b s u hu op room =>
    have before := hu.stands
    refine ⟨before.station, fun other => ?_, fun _ => before.generator, before.cutOff, fun _ => ?_⟩
    · rcases other with notConfig | configured
      · exact absurd rfl (notConfig b)
      · exact absurd op (before.configured configured)
    · simp [acceptConfig, Alignment.listeningEntry]
  | @idleLine s u hu =>
    have before := hu.stands
    obtain ⟨cutOff, align, events, config⟩ := idleDetected_stands u
    rw [cutOff, align, events, config]
    exact ⟨before.station, fun _ => ⟨before.config, before.settings⟩, fun other => absurd rfl other, before.cutOff,
      before.configured⟩
  | completed hu run room => exact stood (hu.stands.trans (completeRun_stands ..))
  | pulse h => exact stood h.stands
  | mark h => exact stood h.stands

/-! ## The figures -/

/-- The figures' range (R55). -/
theorem figuresBounded_law : Law State.FiguresBounded where
  change := by
    intro s t h hs
    rcases h.follow with follow | ⟨i, ident, cls, weight, rtd, _, _, _, rfl⟩
    · exact fun i => (follow.context i).figures (hs i)
    · intro j
      rw [ctx_setCtx]
      split
      · next hj => subst hj; exact hs j
      · exact hs j
  epoch := fun _ _ h => h
  restate := fun _ _ h => h
  reset := fun _ _ i => by simp [ctx, State.resetAt, Context.reset]
  config := fun b s _ _ h i => by rw [ctx_congr (by simp : (acceptConfig b s).contexts = s.contexts)]; exact h i
  idle := fun s h i => by rw [ctx_congr (by simp : (idleDetected s).contexts = s.contexts)]; exact h i
  complete := fun r s _ _ h i => ((completeRun_follow r s).context i).figures (h i)
  pending := fun _ _ h => h

/-! ## The attached contexts -/

theorem attachedCount_eq (s : State) :
    attachedCount s = (Finset.univ.filter fun i : Index => (ctx s i).state ≠ .free).card := by
  rw [attachedCount, Table.count_eq_card]
  exact congrArg _ (Finset.filter_congr fun i _ => by simp [ctx])

/-- The number that is not FREE does not rise where every context follows. -/
theorem ContextsFollow.attachedCount_le {s t : State} (h : ContextsFollow s t) : attachedCount t ≤ attachedCount s := by
  rw [attachedCount_eq, attachedCount_eq]
  refine Finset.card_le_card fun i => ?_
  simp only [Finset.mem_filter, Finset.mem_univ, true_and]
  exact mt (h.context i).free

/-- An ATTACH raises the number that is not FREE by one at most. -/
theorem attachedCount_setCtx_le (i : Index) (c : Context) (s : State) :
    attachedCount (setCtx i c s) ≤ attachedCount s + 1 := by
  rw [attachedCount_eq, attachedCount_eq]
  refine (Finset.card_le_card fun j => ?_).trans (Finset.card_insert_le i _)
  simp only [Finset.mem_filter, Finset.mem_univ, true_and, Finset.mem_insert, ctx_setCtx]
  split
  · next hj => exact fun _ => .inl hj
  · exact .inr

theorem attachedBounded_of_follow {s t : State} (hs : s.AttachedBounded) (follow : ContextsFollow s t)
    (config : t.config = s.config) (configured : s.align.opState ≠ .unconfigured → t.align.opState ≠ .unconfigured) :
    t.AttachedBounded := by
  obtain ⟨free, bounded⟩ := hs
  refine ⟨fun op i => (follow.context i).free (free ?_ i), ?_⟩
  · exact not_not.mp fun h => configured h op
  · rw [config]
    exact follow.attachedCount_le.trans bounded

/-- The attached contexts (R8). -/
theorem attachedBounded_law : Law State.AttachedBounded where
  change := by
    intro s t h hs
    rcases h.follow with follow | ⟨i, ident, cls, weight, rtd, configured, _, room, rfl⟩
    · exact attachedBounded_of_follow hs follow h.stands.config h.stands.configured
    · exact ⟨fun op => absurd op configured, (attachedCount_setCtx_le ..).trans room⟩
  epoch := fun _ _ h => h
  restate := fun _ _ h => h
  reset := by
    intro station s
    have none : ContextsFollow s (State.resetAt station) := by
      refine ⟨fun i => ?_⟩
      simp only [ctx, State.resetAt, Table.get_fill]
      exact ⟨fun _ => rfl, fun _ => ⟨Nat.zero_le _, Nat.zero_le _, Nat.zero_le _, Nat.zero_le _⟩⟩
    refine ⟨fun _ i => by simp [ctx, State.resetAt, Context.reset], ?_⟩
    rw [attachedCount_eq]
    simp [ctx, State.resetAt, Context.reset]
  config := by
    intro b s op _ ⟨free, bounded⟩
    have same (i : Index) : ctx (acceptConfig b s) i = ctx s i := ctx_congr (by simp) i
    refine ⟨fun h => by simp [acceptConfig, Alignment.listeningEntry] at h, ?_⟩
    rw [attachedCount_eq]
    simp [same, free op]
  idle := fun s h => attachedBounded_of_follow h (.of_eq (by simp)) (by simp) (by simp)
  complete := fun r s _ _ h => attachedBounded_of_follow h (completeRun_follow r s) (by simp) (by simp)
  pending := fun _ _ h => h

/-- Settles O55, by the acts: reports and replies mind the queue, failures and returns the Redo List, an ATTACH the
number of contexts. -/
theorem stepKeepsBounds : Obligations.StepKeepsBounds :=
  fun _ _ h => ⟨storesBounded_law.step h, countersBounded_law.step h, figuresBounded_law.step h,
    attachedBounded_law.step h⟩

end Sys2Proof.Machine
end


section
/-!
PROOFS. The laws of the allowance, of runs and tracked plans, of the own set, of the own station's record and of the
ring.
-/
namespace Sys2Proof.Machine

/-! ## The allowance -/

theorem computeAllowance_power (e : Epoch) (s : State) :
    (computeAllowance e s).power =
      { s.power with
        allowance := some (allowanceOf s.config s.power.pPrev (claimSum s.peers))
        powerFloor := powerFloorOf s.config (allowanceOf s.config s.power.pPrev (claimSum s.peers)) } := by
  unfold computeAllowance
  dsimp only
  split <;> rfl

/-- Every act but the start of a run and the entry to LISTENING keeps the allowance held. -/
theorem Change.allowance {s t : State} (h : Change s t) :
    t.power.allowance = s.power.allowance ∨ t.power.allowance = none ∨
      t.power.allowance = some (allowanceOf s.config s.power.pPrev (claimSum s.peers)) := by
  cases h with
  | report h _ => exact .inl (by rw [h.frame])
  | power p allowance => exact .inl allowance
  | relisten => exact .inr (.inl rfl)
  | start e m =>
    refine .inr (.inr ?_)
    show (computeAllowance e s).power.allowance = _
    rw [computeAllowance_power]
  | abort b =>
    refine .inl ?_
    rw [abortRun_power]
    split <;> rfl
  | release | expire | void | drop | fail | settle | empty => exact .inl (by simp)
  | attach | timeout | commit | contexts | engine | edge | peers | hold | align | work | line | freeValue | fifo
  | queue | bus | events => exact .inl rfl

/-- The allowance's range (R108, R112). -/
theorem allowanceBounded_law : Law State.AllowanceBounded where
  change := by
    intro s t h ⟨share, held⟩
    unfold State.AllowanceBounded
    rw [h.stands.config]
    refine ⟨share, fun a ha => ?_⟩
    rcases h.allowance with same | none | computed
    · exact held a (same ▸ ha)
    · simp [none] at ha
    · rw [computed, Option.some.injEq] at ha
      exact ha ▸ ⟨floorShare_le_allowanceOf share, allowanceOf_le_budget⟩
  epoch := fun _ _ h => h
  restate := fun _ _ h => h
  reset := fun _ _ => ⟨Nat.zero_le _, fun a ha => by simp [State.resetAt, Power.reset] at ha⟩
  config := fun b s _ _ _ => ⟨by simp [acceptConfig, clampConfig], fun a ha => by simp [acceptConfig, Power.reset] at ha⟩
  idle := fun s h => by simpa [State.AllowanceBounded] using h
  complete := by
    intro r s _ _ h
    have handed : (completeRun r s).power.allowance = s.power.allowance := by
      simp [completeRun_eq, planQueued, handedOff, handFigures]
    simpa [State.AllowanceBounded, handed] using h
  pending := fun _ _ h => h

/-- Settles O56: an allowance is written by the start of a run alone, and it lies between Φ and B there. -/
theorem stepKeepsAllowanceBounded : Obligations.StepKeepsAllowanceBounded :=
  fun _ _ hs h => allowanceBounded_law.step h hs

/-! ## Runs and tracked plans -/

@[simp] theorem completeRun_run (r : Run) (s : State) : (completeRun r s).engine.run = none := by
  simp [completeRun_eq, planQueued, handedOff, handFigures]

theorem commitBatch_tracking (e : Epoch) (s : State) :
    (commitBatch e s).tracking =
      { s.tracking with
        ring := s.tracking.ring.set (ringIndex e) { target := some e, status := .committed }
        ogt := s.tracking.ogt.map fun g => if g.tag.epoch = e then { g with committed := true } else g } := rfl

/-- Runs and what is tracked, by operating state (R64, R85, R105). -/
theorem plansOnlyWhenOperating_law : Law State.PlansOnlyWhenOperating where
  change := by
    intro s t h ⟨run, tracked⟩
    cases h with
    | report h _ => rw [h.frame]; exact ⟨run, tracked⟩
    | release i attached =>
      refine ⟨by simpa using run, fun ht => ?_⟩
      obtain ⟨ring, ogt, redo⟩ := tracked (by simpa [tracks] using ht)
      simp [acceptRelease_tracking, ring, ogt, redo]
    | expire ht => exact ⟨by simpa using run, fun h => by simp_all [tracks]⟩
    | void n e ht => exact ⟨by simpa using run, fun h => by simp_all [tracks]⟩
    | drop n =>
      refine ⟨by simpa using run, fun ht => ?_⟩
      obtain ⟨ring, ogt, redo⟩ := tracked (by simpa [tracks] using ht)
      simp [dropDeadlines_tracking, ring, ogt, redo]
    | fail g found =>
      refine ⟨by simpa using run, fun ht => ?_⟩
      obtain ⟨ring, ogt, redo⟩ := tracked (by simpa [tracks] using ht)
      simp [findGrant, ogt] at found
    | settle g found =>
      refine ⟨by simpa using run, fun ht => ?_⟩
      obtain ⟨ring, ogt, redo⟩ := tracked (by simpa [tracks] using ht)
      simp [findGrant, ogt] at found
    | commit e target sent =>
      refine ⟨run, fun ht => ?_⟩
      obtain ⟨ring, ogt, redo⟩ := tracked ht
      simp [batchOf, ring, BatchRecord.empty] at sent
    | abort b =>
      refine ⟨by simp, fun ht => ?_⟩
      have idle : tracks s = false := by simpa [tracks] using ht
      rw [abortRun_tracking]
      split
      · next r hr =>
        have operating := run (by rw [hr]; rfl)
        simp [tracks, operating] at idle
      · exact tracked idle
    | hold operating idle => exact ⟨by simp [idle], fun ht => by simp [tracks] at ht⟩
    | empty => exact ⟨by simpa using run, fun _ => by simp⟩
    | engine e same =>
      refine ⟨fun h => ?_, tracked⟩
      rcases same with same | none
      · exact run (same ▸ h)
      · simp [none] at h
    | relisten configured idle ring ogt redo => exact ⟨fun h => by simp [idle] at h, fun _ => ⟨ring, ogt, redo⟩⟩
    | start e m operating =>
      exact ⟨fun _ => by simpa using operating, fun ht => by simp [tracks, operating] at ht⟩
    | align a station epoch opState =>
      rcases opState with ⟨same, _⟩ | ⟨_, operating⟩
      · exact ⟨fun h => same ▸ run h, fun ht => tracked (by simpa [tracks, same] using ht)⟩
      · exact ⟨fun _ => operating, fun ht => by simp [tracks, operating] at ht⟩
    | work | line | freeValue | fifo | queue | bus | events | contexts | attach | timeout | edge | power | peers =>
      exact ⟨run, tracked⟩
  epoch := fun _ _ h => h
  restate := fun p s ⟨run, tracked⟩ => ⟨run, fun ht => by
    obtain ⟨ring, ogt, redo⟩ := tracked ht
    simp [restateTracking, ring, ogt, redo]⟩
  reset := fun _ _ => ⟨fun h => by simp [State.resetAt, Engine.reset] at h, fun _ => ⟨rfl, rfl, rfl⟩⟩
  config := by
    intro b s op _ ⟨run, tracked⟩
    refine ⟨fun h => ?_, fun _ => by simpa using tracked (by simp [tracks, op])⟩
    have operating := run (by simpa using h)
    simp [op] at operating
  idle := fun s h => by simpa [State.PlansOnlyWhenOperating, tracks] using h
  complete := by
    intro r s hr _ ⟨run, _⟩
    have operating := run (by rw [hr]; rfl)
    exact ⟨by simp, fun ht => by simp [tracks, operating] at ht⟩
  pending := fun _ _ h => h

/-- The own set, by operating state (R128). -/
theorem edgeOnlyWhenOperating_law : Law State.EdgeOnlyWhenOperating where
  change := by
    intro s t h empty
    have kept {u : State} (edge : u.edge = s.edge) (align : u.align = s.align) : u.EdgeOnlyWhenOperating := by
      simpa [State.EdgeOnlyWhenOperating, edgeCounts, edgeOn, edge, align] using empty
    cases h with
    | report h _ => rw [h.frame]; exact empty
    | hold | relisten => exact fun _ => rfl
    | edge e ownSet =>
      intro off
      rcases ownSet with same | none | on
      · exact same.trans (empty off)
      · exact none
      · exact absurd (on.symm.trans off) (by decide)
    | align a station epoch opState =>
      intro off
      refine empty ?_
      rcases opState with ⟨same, mode | listening⟩ | ⟨listening | holding, _⟩
      · simpa [edgeCounts, edgeOn, same, mode] using off
      · simp [edgeCounts, listening]
      · simp [edgeCounts, listening]
      · simp [edgeCounts, holding]
    | release | expire | void | drop | fail | settle | abort | empty | start => exact kept (by simp) (by simp)
    | work | line | freeValue | fifo | queue | bus | events | contexts | attach | timeout | commit | engine | power
    | peers => exact empty
  epoch := fun _ _ h => h
  restate := fun _ _ h => h
  reset := fun _ _ _ => rfl
  config := fun b s op _ h _ => by simpa using h (by simp [edgeCounts, op])
  idle := fun s h => by simpa [State.EdgeOnlyWhenOperating, edgeCounts, edgeOn] using h
  complete := by
    intro r s _ _ h off
    have handed : (completeRun r s).edge.ownSet = s.edge.ownSet := by
      simp [completeRun_eq, planQueued, handedOff, handFigures]
    rw [handed]
    exact h (by simpa [edgeCounts, edgeOn] using off)
  pending := fun _ _ h => h

/-- The run that starts names each context once (R60). -/
theorem takeSnapshot_distinct (e : Epoch) (b : BandCount) (s : State) :
    ((takeSnapshot e b s).contexts.map SnapContext.index).Nodup := by
  have indices (i : Index) : (snapContext i (ctx s i)).index = i := rfl
  simp [takeSnapshot, Function.comp_def, indices, Table.positions_nodup]

/-- The contexts of a run (R60). -/
theorem snapshotDistinct_law : Law State.SnapshotDistinct where
  change := by
    intro s t h distinct
    have kept {u : State} (engine : u.engine = s.engine) : u.SnapshotDistinct := by
      simpa [State.SnapshotDistinct, engine] using distinct
    cases h with
    | report h _ => rw [h.frame]; exact distinct
    | engine e same =>
      intro r hr
      rcases same with same | none
      · exact distinct r (same ▸ hr)
      · simp [none] at hr
    | abort b => intro r hr; simp at hr
    | start e m =>
      intro r hr
      simp only [beginRun, Option.some.injEq] at hr
      exact hr ▸ takeSnapshot_distinct ..
    | release | expire | void | drop | fail | settle | empty => exact kept (by simp)
    | work | line | freeValue | fifo | queue | bus | events | contexts | attach | timeout | commit | hold | relisten
    | edge | align | power | peers => exact distinct
  epoch := fun _ _ h => h
  restate := fun _ _ h => h
  reset := fun _ _ r hr => by simp [State.resetAt, Engine.reset] at hr
  config := fun b s _ _ h => by simpa [State.SnapshotDistinct] using h
  idle := fun s h => by simpa [State.SnapshotDistinct] using h
  complete := fun r s _ _ _ x hx => by simp at hx
  pending := fun _ _ h => h

/-- Settles O57: each act that writes the run, the tracking state, the own set or the operating state does so under the
condition the laws name. -/
theorem stepKeepsOperatingLaws : Obligations.StepKeepsOperatingLaws :=
  fun _ _ h => ⟨plansOnlyWhenOperating_law.step h, edgeOnlyWhenOperating_law.step h, snapshotDistinct_law.step h⟩

/-! ## The own station's record -/

/-- The record at the own number (R143). -/
theorem ownPeerAbsent_law : Law State.OwnPeerAbsent where
  change := by
    intro s t h own
    have station := h.stands.station
    have kept {u : State} (peers : u.peers = s.peers) (same : u.align.station = s.align.station) :
        u.OwnPeerAbsent := by
      simpa [State.OwnPeerAbsent, peers, same] using own
    cases h with
    | report h _ => rw [h.frame]; exact own
    | relisten => simp [State.OwnPeerAbsent, PeerTable.realigned, Peer.reset]
    | align => exact kept rfl station
    | peers p absent => exact absent own
    | release | expire | void | drop | fail | settle | abort | empty | start => exact kept (by simp) (by simp)
    | work | line | freeValue | fifo | queue | bus | events | contexts | attach | timeout | commit | engine | power
    | hold | edge => exact own
  epoch := fun _ _ h => h
  restate := fun _ _ h => h
  reset := fun _ _ => by simp [State.OwnPeerAbsent, State.resetAt, PeerTable.reset, Peer.reset]
  config := fun b s _ _ h => by
    simpa [State.OwnPeerAbsent, acceptConfig, writeAdjacency, Alignment.listeningEntry, Alignment.reset] using h
  idle := fun s h => by simpa [State.OwnPeerAbsent] using h
  complete := fun r s _ _ h => by simpa [State.OwnPeerAbsent] using h
  pending := fun _ _ h => h

/-- Settles O58: every act that writes the Peer Table leaves the own record ABSENT. -/
theorem stepKeepsOwnPeerAbsent : Obligations.StepKeepsOwnPeerAbsent :=
  fun _ _ hs h => ownPeerAbsent_law.step h hs

/-! ## The ring -/

theorem ringPlaced_set {s t : State} {e : Epoch} {st : BatchStatus} (h : s.RingPlaced)
    (ring : t.tracking.ring = s.tracking.ring.set (ringIndex e) { target := some e, status := st }) :
    t.RingPlaced := by
  intro p sent
  rw [ring, Table.get_set] at sent ⊢
  split at sent
  · next hp => simp [hp]
  · next hp => simpa [hp] using h p sent

/-- The place of a record that is SENT (R86). -/
theorem ringPlaced_law : Law State.RingPlaced where
  change := by
    intro s t h placed
    have kept {u : State} (ring : u.tracking.ring = s.tracking.ring) : u.RingPlaced := by
      simpa [State.RingPlaced, ring] using placed
    cases h with
    | report h _ => rw [h.frame]; exact placed
    | release => exact kept (by rw [acceptRelease_tracking])
    | expire => exact kept (foldl_failEntry_tracking ..).2
    | void n e => exact ringPlaced_set placed (voidBatch_tracking n e s).2
    | drop => exact kept (by rw [dropDeadlines_tracking])
    | fail g => exact kept (failEntry_tracking s g).2
    | settle g => exact kept (by rw [dropOutstanding_tracking]; rfl)
    | commit e => exact ringPlaced_set placed rfl
    | abort b =>
      cases hr : s.engine.run with
      | some r => exact ringPlaced_set placed (by rw [abortRun_tracking, hr])
      | none => exact kept (by rw [abortRun_tracking, hr])
    | empty => intro p sent; simp [BatchRecord.empty] at sent
    | start => exact kept (by simp)
    | work | line | freeValue | fifo | queue | bus | events | contexts | attach | timeout | engine | power
    | hold | edge | relisten | align | peers => exact placed
  epoch := fun _ _ h => h
  restate := fun _ _ h => h
  reset := fun _ _ p sent => by simp [State.resetAt, Tracking.reset, BatchRecord.empty] at sent
  config := fun b s _ _ h => by simpa [State.RingPlaced] using h
  idle := fun s h => by simpa [State.RingPlaced] using h
  complete := fun r s _ _ h => ringPlaced_set h (by simp [completeRun_eq, planQueued, handedOff, enterBatch, consumeRedo]; rfl)
  pending := fun _ _ h => h

/-- Settles O59: a record is written at its target's position alone. -/
theorem stepKeepsRingPlaced : Obligations.StepKeepsRingPlaced :=
  fun _ _ hs h => ringPlaced_law.step h hs

end Sys2Proof.Machine
end


section
/-!
PROOFS. Outstanding and tags (R6, R11, R19, R93, R98): each act that takes an entry out of the OGT lowers the count of
its context, and hands its tag or its origin's tag on at most once.
-/
namespace Sys2Proof.Machine

/-! ## Entries by tag, context and origin -/

/-- What the laws of the tracking state read of an OGT entry. -/
def OgtEntry.identity (g : OgtEntry) : Tag × Index × Option RedoOrigin := (g.tag, g.context, g.origin)

/-- The OGT by tag, context and origin. -/
def State.identities (s : State) : List (Tag × Index × Option RedoOrigin) := s.tracking.ogt.map OgtEntry.identity

/-- The origin tags of the entries. -/
def originTags (l : List (Tag × Index × Option RedoOrigin)) : List Tag := (l.filterMap fun x => x.2.2).map RedoOrigin.tag

theorem identities_tags (s : State) : s.tracking.ogt.map OgtEntry.tag = s.identities.map fun x => x.1 := by
  simp [State.identities, OgtEntry.identity, Function.comp_def]

theorem identities_origins (s : State) :
    (s.tracking.ogt.filterMap OgtEntry.origin).map RedoOrigin.tag = originTags s.identities := by
  simp [State.identities, originTags, List.filterMap_map, OgtEntry.identity, Function.comp_def]

theorem identities_count (s : State) (i : Index) :
    (s.tracking.ogt.filter fun g => g.context == i).length = (s.identities.filter fun x => x.2.1 == i).length := by
  simp [State.identities, List.filter_map, OgtEntry.identity, Function.comp_def]

/-- The origin tags of the Redo List. -/
def State.redoTags (s : State) : List Tag := s.tracking.redo.map RedoEntry.origin

theorem tagsDistinct_iff (s : State) :
    s.TagsDistinct ↔ (s.redoTags ++ originTags s.identities ++ s.identities.map fun x => x.1).Nodup := by
  rw [State.TagsDistinct, identities_origins, identities_tags]
  rfl

theorem outstandingCounts_iff (s : State) :
    s.OutstandingCounts ↔ ∀ i,
      (ctx s i).outstanding = (s.identities.filter fun x => x.2.1 == i).length ∧
        ((ctx s i).state = .free ∨ (ctx s i).state = .admitting → (ctx s i).outstanding = 0) := by
  simp only [State.OutstandingCounts, identities_count]

theorem runRedoFresh_iff (s : State) :
    s.RunRedoFresh ↔ ∀ r, s.engine.run = some r →
      (r.redoOrigins ++ originTags s.identities ++ s.identities.map fun x => x.1).Nodup := by
  simp only [State.RunRedoFresh, identities_origins, identities_tags]

/-- Outstanding counts the entries and no tag stands twice. -/
def State.Consistent (s : State) : Prop := s.OutstandingCounts ∧ s.TagsDistinct

/-! ## Entries leave -/

/-- Every context's outstanding stands but that of `i`, which falls by one; a context whose state changes has none. -/
structure Lowers (i : Index) (s t : State) : Prop where
  outstanding : ∀ j, (ctx t j).outstanding = if j = i then (ctx s j).outstanding - 1 else (ctx s j).outstanding
  state : ∀ j, (ctx t j).state = (ctx s j).state ∨ (ctx t j).outstanding = 0

theorem dropOutstanding_lowers (i : Index) (s : State) : Lowers i s (dropOutstanding i s) := by
  constructor <;> intro j <;> rw [ctx_dropOutstanding] <;> split
  · next hj =>
    subst hj
    split
    · next h => exact h.2.symm
    · rfl
  · rfl
  · next hj =>
    subst hj
    split
    · exact .inr rfl
    · exact .inl rfl
  · exact .inl rfl

theorem Lowers.of_same {i : Index} {s t u : State} (h : Lowers i t u)
    (same : ∀ j, (ctx t j).outstanding = (ctx s j).outstanding ∧ (ctx t j).state = (ctx s j).state) : Lowers i s u where
  outstanding := fun j => by rw [h.outstanding, (same j).1]
  state := fun j => by rw [← (same j).2]; exact h.state j

theorem ctx_refund_counts (i : Index) (d : Direction) (n : Nat) (s : State) (j : Index) :
    (ctx (refund i d n s) j).outstanding = (ctx s j).outstanding ∧ (ctx (refund i d n s) j).state = (ctx s j).state := by
  have written (m : Nat) : (ctx (setCtx i ((ctx s i).withBacklog d m) s) j).outstanding = (ctx s j).outstanding ∧
      (ctx (setCtx i ((ctx s i).withBacklog d m) s) j).state = (ctx s j).state := by
    rw [ctx_setCtx]
    split
    · next hj => subst hj; cases d <;> exact ⟨rfl, rfl⟩
    · exact ⟨rfl, rfl⟩
  unfold refund
  dsimp only
  split
  · split
    · exact written _
    · exact written _
  · exact ⟨rfl, rfl⟩

theorem failEntry_lowers (s : State) (g : OgtEntry) : Lowers g.context s (failEntry s g) :=
  (dropOutstanding_lowers ..).of_same fun j => by
    rw [ctx_congr (by simp : (failGrant g (removeGrant g.tag s)).contexts = s.contexts)]
    exact ⟨rfl, rfl⟩

theorem voidEntry_lowers (n : Epoch) (s : State) (g : OgtEntry) : Lowers g.context s (voidEntry n s g) := by
  refine (dropOutstanding_lowers ..).of_same fun j => ?_
  cases g.origin with
  | some o =>
    rw [ctx_congr (by simp : (returnGrant n g o (removeGrant g.tag s)).contexts = s.contexts)]
    exact ⟨rfl, rfl⟩
  | none => exact ctx_refund_counts ..

/-- An entry that the OGT has, with what stays when its tag leaves. -/
theorem identities_perm {s : State} {g : OgtEntry} (distinct : (s.tracking.ogt.map OgtEntry.tag).Nodup)
    (mem : g ∈ s.tracking.ogt) :
    s.identities.Perm (g.identity :: (s.tracking.ogt.filter fun h => h.tag != g.tag).map OgtEntry.identity) := by
  unfold State.identities
  generalize s.tracking.ogt = l at *
  induction l with
  | nil => simp at mem
  | cons x xs ih =>
    obtain ⟨fresh, rest⟩ := List.nodup_cons.mp distinct
    rcases List.mem_cons.mp mem with rfl | mem
    · have others : (xs.filter fun h => h.tag != g.tag) = xs := List.filter_eq_self.mpr fun h hh => by
        simpa using fun eq : h.tag = g.tag => fresh (eq ▸ List.mem_map_of_mem hh)
      simp [others]
    · have other : x.tag ≠ g.tag := fun eq => fresh (eq ▸ List.mem_map_of_mem mem)
      simpa [other] using ((ih rest mem).cons x.identity).trans (List.Perm.swap ..)

/-- An entry leaves the OGT, with its tag or its origin's tag handed to the Redo List or with neither. -/
theorem consistent_leaves {s t : State} {g : OgtEntry} (h : s.Consistent) (mem : g ∈ s.tracking.ogt)
    (lowers : Lowers g.context s t) (ogt : t.tracking.ogt = s.tracking.ogt.filter fun h => h.tag != g.tag)
    (redo : t.redoTags.Perm s.redoTags ∨ t.redoTags.Perm (g.tag :: s.redoTags) ∨
      ∃ o, g.origin = some o ∧ t.redoTags.Perm (o.tag :: s.redoTags)) : t.Consistent := by
  obtain ⟨counts, tags⟩ := h
  have perm : s.identities.Perm (g.identity :: t.identities) := by
    have distinct : (s.tracking.ogt.map OgtEntry.tag).Nodup := (List.nodup_append.mp tags).2.1
    unfold State.identities
    rw [ogt]
    exact identities_perm distinct mem
  rw [outstandingCounts_iff] at counts
  rw [tagsDistinct_iff] at tags
  refine ⟨(outstandingCounts_iff t).mpr fun i => ?_, (tagsDistinct_iff t).mpr ?_⟩
  · obtain ⟨count, none⟩ := counts i
    have named := (perm.filter fun x => x.2.1 == i).length_eq
    simp only [List.filter_cons, OgtEntry.identity, beq_iff_eq] at named
    refine ⟨?_, fun state => ?_⟩
    · rw [lowers.outstanding, count]
      by_cases hi : i = g.context
      · subst hi
        simp at named ⊢
        omega
      · have hi' : ¬g.context = i := fun h => hi h.symm
        simp [hi, hi'] at named ⊢
        omega
    · rcases lowers.state i with same | zero
      · have := none (same ▸ state)
        rw [lowers.outstanding, this]
        split <;> rfl
      · exact zero
  · rw [List.nodup_iff_count_le_one] at tags ⊢
    intro a
    have bound := tags a
    have tagCount := (perm.map fun x => x.1).count_eq a
    have originCount : (originTags s.identities).count a =
        ((g.origin.map RedoOrigin.tag).toList ++ originTags t.identities).count a := by
      have split : originTags (g.identity :: t.identities) =
          (g.origin.map RedoOrigin.tag).toList ++ originTags t.identities := by
        cases ho : g.origin <;> simp [originTags, OgtEntry.identity, ho]
      rw [← split]
      exact ((perm.filterMap _).map RedoOrigin.tag).count_eq a
    simp only [List.map_cons, List.count_append, List.count_cons, OgtEntry.identity] at bound tagCount originCount ⊢
    rcases redo with same | failed | ⟨o, ho, returned⟩
    · rw [same.count_eq]
      omega
    · rw [failed.count_eq, List.count_cons]
      omega
    · rw [returned.count_eq, List.count_cons]
      simp only [ho, Option.map_some, Option.toList_some, List.count_cons, List.count_nil] at originCount
      omega

end Sys2Proof.Machine
end


section
/-!
PROOFS. Outstanding and tags through every act and every command but a completion (R6, R11, R19, R93, R98).
-/
namespace Sys2Proof.Machine

/-! ## One act -/

/-- The laws hold of `t` as they do of `s`, and the OGT of `t` has no entry that the OGT of `s` had not. -/
structure Consumes (s t : State) : Prop where
  consistent : t.Consistent
  fresh : s.RunRedoFresh → t.RunRedoFresh
  sub : t.identities.Sublist s.identities

theorem Consumes.refl {s : State} (h : s.Consistent) : Consumes s s := ⟨h, id, List.Sublist.refl _⟩

theorem Consumes.trans {s t u : State} (h : Consumes s t) (g : Consumes t u) : Consumes s u :=
  ⟨g.consistent, g.fresh ∘ h.fresh, g.sub.trans h.sub⟩

/-- The run in flight stays fresh while the OGT only loses entries. -/
theorem runRedoFresh_of_sub {s t : State} (run : t.engine.run = s.engine.run ∨ t.engine.run = none)
    (sub : t.identities.Sublist s.identities) (h : s.RunRedoFresh) : t.RunRedoFresh := by
  rw [runRedoFresh_iff] at h ⊢
  intro r hr
  rcases run with same | none
  · refine (h r (same ▸ hr)).sublist (List.Sublist.append (List.Sublist.append_left ?_ _) (sub.map _))
    exact (sub.filterMap _).map _
  · simp [none] at hr

/-- An act that keeps the OGT and every outstanding keeps the laws. -/
theorem consistent_of_same {s t : State} (h : s.Consistent) (same : t.identities = s.identities)
    (redo : t.redoTags.Sublist s.redoTags)
    (contexts : ∀ i, (ctx t i).outstanding = (ctx s i).outstanding ∧
      ((ctx t i).state = .free ∨ (ctx t i).state = .admitting →
        (ctx s i).state = .free ∨ (ctx s i).state = .admitting ∨ (ctx t i).outstanding = 0)) : t.Consistent := by
  obtain ⟨counts, tags⟩ := h
  rw [outstandingCounts_iff] at counts
  rw [tagsDistinct_iff] at tags
  refine ⟨(outstandingCounts_iff t).mpr fun i => ?_, (tagsDistinct_iff t).mpr ?_⟩
  · obtain ⟨out, state⟩ := contexts i
    obtain ⟨count, none⟩ := counts i
    refine ⟨by rw [out, same, count], fun st => ?_⟩
    rcases state st with free | admitting | zero
    · exact out.trans (none (.inl free))
    · exact out.trans (none (.inr admitting))
    · exact zero
  · rw [same]
    exact tags.sublist ((redo.append_right _).append_right _)

/-- Acts that leave contexts and what is tracked. -/
theorem consumes_of_eq {s t : State} (h : s.Consistent) (contexts : t.contexts = s.contexts)
    (tracking : t.tracking = s.tracking) (run : t.engine.run = s.engine.run ∨ t.engine.run = none) : Consumes s t := by
  have same : t.identities = s.identities := by rw [State.identities, tracking]; rfl
  refine ⟨consistent_of_same h same (by rw [State.redoTags, tracking]; exact List.Sublist.refl _) fun i => ?_,
    runRedoFresh_of_sub run (by rw [same]), by rw [same]⟩
  rw [ctx_congr contexts]
  exact ⟨rfl, fun st => st.imp_right .inl⟩

theorem identities_filter {s t : State} {p : OgtEntry → Bool} (h : t.tracking.ogt = s.tracking.ogt.filter p) :
    t.identities.Sublist s.identities := by
  rw [State.identities, h]
  exact List.filter_sublist.map _

/-- One entry leaves. -/
theorem consumes_leave {s t : State} {g : OgtEntry} (h : s.Consistent) (mem : g ∈ s.tracking.ogt)
    (lowers : Lowers g.context s t) (ogt : t.tracking.ogt = s.tracking.ogt.filter fun h => h.tag != g.tag)
    (redo : t.redoTags.Perm s.redoTags ∨ t.redoTags.Perm (g.tag :: s.redoTags) ∨
      ∃ o, g.origin = some o ∧ t.redoTags.Perm (o.tag :: s.redoTags))
    (run : t.engine.run = s.engine.run) : Consumes s t :=
  ⟨consistent_leaves h mem lowers ogt redo, runRedoFresh_of_sub (.inl run) (identities_filter ogt),
    identities_filter ogt⟩

theorem insertRedo_tags (e : RedoEntry) (l : List RedoEntry) :
    ((insertRedo e l).map RedoEntry.origin).Perm (e.origin :: l.map RedoEntry.origin) :=
  (insertRedo_perm e l).map _

theorem failEntry_consumes {s : State} {g : OgtEntry} (h : s.Consistent) (mem : g ∈ s.tracking.ogt) :
    Consumes s (failEntry s g) := by
  refine consumes_leave h mem (failEntry_lowers s g) (failEntry_tracking s g).1 ?_ (by simp)
  rw [State.redoTags, failEntry, dropOutstanding_tracking]
  rcases failGrant_tracking g (removeGrant g.tag s) with same | ⟨_, failed⟩
  · rw [same]
    exact .inl (List.Perm.refl _)
  · rw [failed]
    exact .inr (.inl (insertRedo_tags ..))

theorem voidEntry_consumes (n : Epoch) {s : State} {g : OgtEntry} (h : s.Consistent) (mem : g ∈ s.tracking.ogt) :
    Consumes s (voidEntry n s g) := by
  refine consumes_leave h mem (voidEntry_lowers n s g) (voidEntry_tracking n s g).1 ?_ (by simp)
  rw [State.redoTags, voidEntry, dropOutstanding_tracking]
  cases origin : g.origin with
  | some o =>
    rcases returnGrant_tracking n g o (removeGrant g.tag s) with same | ⟨_, returned⟩
    · dsimp only
      rw [same]
      exact .inl (List.Perm.refl _)
    · dsimp only
      rw [returned]
      exact .inr (.inr ⟨o, rfl, insertRedo_tags ..⟩)
  | none =>
    have kept : (refund g.context g.direction g.bytes (removeGrant g.tag s)).tracking = (removeGrant g.tag s).tracking :=
      by simp
    dsimp only
    rw [kept]
    exact .inl (List.Perm.refl _)

/-- Entries leave one after another. -/
theorem foldl_consumes {f : State → OgtEntry → State}
    (step : ∀ s g, s.Consistent → g ∈ s.tracking.ogt → Consumes s (f s g))
    (leaves : ∀ s g, (f s g).tracking.ogt = s.tracking.ogt.filter fun h => h.tag != g.tag) (l : List OgtEntry)
    {s : State} (h : s.Consistent) (mem : ∀ g ∈ l, g ∈ s.tracking.ogt) (distinct : (l.map OgtEntry.tag).Nodup) :
    Consumes s (l.foldl f s) := by
  induction l generalizing s with
  | nil => exact .refl h
  | cons g l ih =>
    obtain ⟨fresh, rest⟩ := List.nodup_cons.mp distinct
    have first := step s g h (mem g (by simp))
    refine first.trans (ih first.consistent (fun x hx => ?_) rest)
    rw [leaves]
    refine List.mem_filter.mpr ⟨mem x (by simp [hx]), ?_⟩
    simpa using fun eq : x.tag = g.tag => fresh (eq ▸ List.mem_map_of_mem hx)

/-- Entries that a filter picks leave one after another. -/
theorem foldl_filter_consumes {f : State → OgtEntry → State}
    (step : ∀ s g, s.Consistent → g ∈ s.tracking.ogt → Consumes s (f s g))
    (leaves : ∀ s g, (f s g).tracking.ogt = s.tracking.ogt.filter fun h => h.tag != g.tag) (p : OgtEntry → Bool)
    {s : State} (h : s.Consistent) : Consumes s ((s.tracking.ogt.filter p).foldl f s) := by
  refine foldl_consumes step leaves _ h (fun g hg => List.mem_of_mem_filter hg) ?_
  exact (List.nodup_append.mp h.2).2.1.sublist (List.filter_sublist.map _)

theorem acceptRelease_consumes {i : Index} {s : State} (h : s.Consistent)
    (attached : (ctx s i).state.attached = true) : Consumes s (acceptRelease i s) := by
  have same : (acceptRelease i s).identities = s.identities := by
    rw [State.identities, acceptRelease_tracking]
    rfl
  refine ⟨consistent_of_same h same ?_ fun j => ?_, runRedoFresh_of_sub (.inl (by simp)) (by rw [same]), by rw [same]⟩
  · rw [State.redoTags, acceptRelease_tracking]
    exact List.filter_sublist.map _
  · rw [ctx_acceptRelease]
    split
    · next hj =>
      subst hj
      split
      · exact ⟨rfl, by simp⟩
      · next none => exact ⟨by simp only [Context.freed, Context.reset]; omega, fun _ => .inr (.inr rfl)⟩
    · exact ⟨rfl, fun st => st.imp_right .inl⟩

theorem emptyTracking_consumes (s : State) : Consumes s (emptyTracking s) := by
  have none : (emptyTracking s).identities = [] := by simp [State.identities]
  have sub : (emptyTracking s).identities.Sublist s.identities := none ▸ List.nil_sublist _
  refine ⟨⟨(outstandingCounts_iff _).mpr fun i => ?_, (tagsDistinct_iff _).mpr ?_⟩,
    runRedoFresh_of_sub (.inl (by simp)) sub, sub⟩
  · rw [none, ctx_emptyTracking]
    split <;> exact ⟨rfl, fun _ => rfl⟩
  · rw [none, State.redoTags, emptyTracking_tracking]
    exact List.nodup_nil

theorem redoEntries_orderOf (sn : Snapshot) (e : Epoch) (d : Direction) :
    redoEntries (orderOf sn e d) = sn.redo.filter fun x => x.direction == d := by
  have redo (l : List RedoEntry) : redoEntries (l.map OrderEntry.redo) = l := by
    simp [redoEntries, List.filterMap_map]
  have fresh (l : List Candidate) : redoEntries (l.map OrderEntry.fresh) = [] := by
    simp [redoEntries, List.filterMap_map]
  have append (l m : List OrderEntry) : redoEntries (l ++ m) = redoEntries l ++ redoEntries m :=
    List.filterMap_append
  rw [orderOf, append, redo, fresh, List.append_nil]

/-- A run that starts takes its redo entries from the Redo List, each in one direction (R53, R60). -/
theorem beginRun_fresh {e : Epoch} {m : Mode} {s : State} (h : s.TagsDistinct) : (beginRun e m s).RunRedoFresh := by
  have same : (beginRun e m s).identities = s.identities := by rw [State.identities]; simp; rfl
  rw [tagsDistinct_iff] at h
  rw [runRedoFresh_iff, same]
  intro r hr
  simp only [beginRun, Option.some.injEq] at hr
  subst hr
  have computed : (computeAllowance e s).tracking = s.tracking := by simp
  have append (l m : List OrderEntry) : redoEntries (l ++ m) = redoEntries l ++ redoEntries m :=
    List.filterMap_append
  have split (l : List RedoEntry) :
      ((l.filter fun x => x.direction == .dl) ++ l.filter fun x => x.direction == .ul).Perm l := by
    have other : (fun x : RedoEntry => x.direction == .ul) = fun x => !(x.direction == .dl) := by
      funext x
      cases x.direction <;> rfl
    rw [other]
    exact List.filter_append_perm _ l
  have taken : ((eligibleRedo (now (computeAllowance e s)) s.tracking.redo).map RedoEntry.origin).Sublist s.redoTags :=
    List.filter_sublist.map _
  rw [List.append_assoc] at h ⊢
  refine List.Perm.nodup (List.Perm.append_right _ ?_) (h.sublist (taken.append_right _))
  simp only [Run.redoOrigins, append, redoEntries_orderOf, takeSnapshot, computed]
  exact ((split _).map _).symm

/-- An act keeps the laws. -/
theorem Change.consumes {s t : State} (h : Change s t) (hs : s.Consistent) : Consumes s t := by
  have touched {u : State} (contexts : ∀ i, (ctx u i).outstanding = (ctx s i).outstanding ∧
      ((ctx u i).state = .free ∨ (ctx u i).state = .admitting →
        (ctx s i).state = .free ∨ (ctx s i).state = .admitting ∨ (ctx u i).outstanding = 0))
      (tracking : u.tracking = s.tracking) (engine : u.engine = s.engine) : Consumes s u := by
    have same : u.identities = s.identities := by rw [State.identities, tracking]; rfl
    exact ⟨consistent_of_same hs same (by rw [State.redoTags, tracking]; exact List.Sublist.refl _) contexts,
      runRedoFresh_of_sub (.inl (by rw [engine])) (by rw [same]), by rw [same]⟩
  cases h with
  | report h _ => rw [h.frame]; exact consumes_of_eq hs rfl rfl (.inl rfl)
  | contexts u touches =>
    refine touched (fun i => ⟨(touches i).outstanding, fun st => ?_⟩) rfl rfl
    exact st.imp (touches i).free.mp fun a => .inl ((touches i).admitting a)
  | attach i ident cls weight rtd configured free room =>
    refine touched (fun j => ?_) rfl rfl
    rw [ctx_setCtx]
    split
    · next hj => subst hj; exact ⟨rfl, fun _ => .inl free⟩
    · exact ⟨rfl, fun st => st.imp_right .inl⟩
  | timeout i admitting =>
    have none : (ctx s i).outstanding = 0 := (hs.1 i).2 (.inr admitting)
    refine touched (fun j => ?_) rfl rfl
    unfold enterFree
    rw [ctx_setCtx]
    split
    · next hj => subst hj; exact ⟨none.symm, fun _ => .inr (.inr rfl)⟩
    · exact ⟨rfl, fun st => st.imp_right .inl⟩
  | release i attached => exact acceptRelease_consumes hs attached
  | expire => exact foldl_filter_consumes (fun _ _ => failEntry_consumes) (fun s g => (failEntry_tracking s g).1) _ hs
  | void n e =>
    have emptied := foldl_filter_consumes (fun _ _ => voidEntry_consumes n) (fun s g => (voidEntry_tracking n s g).1)
      (fun g => g.tag.epoch == e) hs
    have reported (u : State) (hu : u.Consistent) :
        Consumes u (advance .batchesVoided 1 (setEvent .batchVoid e.val .none (setBatch e .void u))) := by
      have same : (advance .batchesVoided 1 (setEvent .batchVoid e.val .none (setBatch e .void u))).tracking =
          (setBatch e .void u).tracking := by simp
      have ident : (advance .batchesVoided 1 (setEvent .batchVoid e.val .none (setBatch e .void u))).identities =
          u.identities := by rw [State.identities, same]; rfl
      refine ⟨consistent_of_same hu ident (by rw [State.redoTags, same]; exact List.Sublist.refl _) fun i => ?_,
        runRedoFresh_of_sub (.inl (by simp)) (by rw [ident]), by rw [ident]⟩
      rw [ctx_congr (by simp :
        (advance .batchesVoided 1 (setEvent .batchVoid e.val .none (setBatch e .void u))).contexts = u.contexts)]
      exact ⟨rfl, fun st => st.imp_right .inl⟩
    exact emptied.trans (reported _ emptied.consistent)
  | drop n =>
    have same : (dropDeadlines n s).identities = s.identities := by
      rw [State.identities, dropDeadlines_tracking]
      rfl
    refine ⟨consistent_of_same hs same ?_ fun i => ?_, runRedoFresh_of_sub (.inl (by simp)) (by rw [same]), by rw [same]⟩
    · rw [State.redoTags, dropDeadlines_tracking]
      exact List.filter_sublist.map _
    · rw [ctx_congr (by simp : (dropDeadlines n s).contexts = s.contexts)]
      exact ⟨rfl, fun st => st.imp_right .inl⟩
  | fail g found => exact failEntry_consumes hs (List.mem_of_find?_eq_some found)
  | settle g found =>
    refine consumes_leave hs (List.mem_of_find?_eq_some found) ?_ ?_ (.inl ?_) (by simp)
    · exact (dropOutstanding_lowers ..).of_same fun j => ⟨rfl, rfl⟩
    · rw [dropOutstanding_tracking]
      rfl
    · rw [State.redoTags, dropOutstanding_tracking]
      exact List.Perm.refl _
  | commit e target sent =>
    have same : (commitBatch e s).identities = s.identities := by
      rw [State.identities, commitBatch_tracking, List.map_map]
      exact List.map_congr_left fun g _ => by simp only [Function.comp]; split <;> rfl
    exact ⟨consistent_of_same hs same (List.Sublist.refl _) fun i => ⟨rfl, fun st => st.imp_right .inl⟩,
      runRedoFresh_of_sub (.inl rfl) (by rw [same]), by rw [same]⟩
  | abort b =>
    have same : (abortRun b s).identities = s.identities := by
      rw [State.identities, abortRun_tracking]
      split <;> rfl
    refine ⟨consistent_of_same hs same ?_ fun i => ?_, runRedoFresh_of_sub (.inr (by simp)) (by rw [same]), by rw [same]⟩
    · rw [State.redoTags, abortRun_tracking]
      split <;> exact List.Sublist.refl _
    · rw [ctx_congr (by simp : (abortRun b s).contexts = s.contexts)]
      exact ⟨rfl, fun st => st.imp_right .inl⟩
  | empty => exact emptyTracking_consumes s
  | start e m =>
    have same : (beginRun e m s).identities = s.identities := by rw [State.identities]; simp; rfl
    refine ⟨consistent_of_same hs same (by rw [State.redoTags]; simp; exact List.Sublist.refl _) fun i => ?_,
      fun _ => beginRun_fresh hs.2, by rw [same]⟩
    rw [ctx_congr (by simp : (beginRun e m s).contexts = s.contexts)]
    exact ⟨rfl, fun st => st.imp_right .inl⟩
  | engine e run => exact consumes_of_eq hs rfl rfl run
  | work | line | freeValue | fifo | queue | bus | events | hold | relisten | edge | power | align | peers =>
    exact consumes_of_eq hs rfl rfl (.inl rfl)

end Sys2Proof.Machine
end


section
/-!
PROOFS. Outstanding and tags at every command, at a completion too, and the number of entries the OGT can hold.
-/
namespace Sys2Proof.Machine

/-! ## The commands but a completion -/

theorem Changes.consumes {s t : State} (h : Changes s t) (hs : s.Consistent) : Consumes s t :=
  h.keeps (P := Consumes s) (fun _ _ c g => g.trans (c.consumes g.consistent)) (.refl hs)

theorem Arrivals.consumes {s t : State} (h : Arrivals s t) (hs : s.Consistent) : Consumes s t := by
  refine h.keeps (P := Consumes s) (fun u v c g => g.trans ?_) (.refl hs)
  cases c with
  | change c => exact c.consumes g.consistent
  | epoch e =>
    exact ⟨consistent_of_same g.consistent rfl (List.Sublist.refl _) fun i => ⟨rfl, fun st => st.imp_right .inl⟩,
      runRedoFresh_of_sub (.inl rfl) (List.Sublist.refl _), List.Sublist.refl _⟩
  | restate p =>
    have same : (restateTracking p u).identities = u.identities := by
      simp [State.identities, restateTracking, Function.comp_def, OgtEntry.identity]
    have redo : (restateTracking p u).redoTags = u.redoTags := by
      simp [State.redoTags, restateTracking, Function.comp_def]
    exact ⟨consistent_of_same g.consistent same (by rw [redo]) fun i => ⟨rfl, fun st => st.imp_right .inl⟩,
      runRedoFresh_of_sub (.inl rfl) (by rw [same]), by rw [same]⟩

/-- Every command but a completion keeps the laws. -/
theorem exec_consumes {c : Instr} {s t : State} (other : c ≠ .runCompletion) (hs : s.Consistent)
    (h : exec c s = .next t) : Consumes s t := by
  cases exec_runs h with
  | acts h => exact h.consumes hs
  | reset station =>
    refine ⟨⟨fun i => ?_, List.nodup_nil⟩, fun _ r hr => by simp [State.resetAt, Engine.reset] at hr, List.nil_sublist _⟩
    simp [ctx, State.resetAt, Context.reset, Tracking.reset]
  | @configured b s u hu =>
    have before := hu.consumes hs
    exact before.trans (consumes_of_eq before.consistent (by simp) (by simp) (.inl (by simp)))
  | idleLine hu =>
    have before := hu.consumes hs
    exact before.trans (consumes_of_eq before.consistent (by simp) (by simp) (.inl (by simp)))
  | completed => exact absurd rfl other
  | pulse h => exact h.consumes hs
  | mark h => exact h.consumes hs

/-! ## What a direction's placement delivers -/

/-- What one entry adds to the placed grants: nothing, or one grant, from the redo entry it is, if it is one. -/
def Extends (e : OrderEntry) (pr next : Progress) : Prop :=
  next.placed = pr.placed ∨
    ∃ p, next.placed = pr.placed ++ [p] ∧ p.redo = (redoEntries [e]).head?

theorem placeDl_extends (sn : Snapshot) (pr : Progress) (e : OrderEntry) : Extends e pr (placeDl sn pr e) := by
  cases e with
  | redo e =>
    simp only [placeDl]
    split
    · exact .inr ⟨_, rfl, rfl⟩
    · exact .inl rfl
  | fresh c =>
    simp only [placeDl]
    split
    · exact .inr ⟨_, rfl, rfl⟩
    · exact .inl rfl

theorem placeUl_extends (sn : Snapshot) (pr : Progress) (e : OrderEntry) : Extends e pr (placeUl sn pr e) := by
  cases e with
  | redo e =>
    simp only [placeUl]
    split
    · split
      · exact .inl rfl
      · split
        · exact .inr ⟨_, rfl, rfl⟩
        · exact .inl rfl
    · exact .inl rfl
  | fresh c =>
    simp only [placeUl]
    split
    · exact .inr ⟨_, rfl, rfl⟩
    · exact .inl rfl

section Placement

variable {place : Progress → OrderEntry → Progress}

/-- A direction places at most 16 grants (R67). -/
theorem foldl_placeNext_length (h : ∀ pr e, Extends e pr (place pr e)) (l : List OrderEntry) {pr : Progress}
    (bound : pr.placed.length ≤ Config.grantsMax) :
    (l.foldl (placeNext place) pr).placed.length ≤ Config.grantsMax := by
  induction l generalizing pr with
  | nil => exact bound
  | cons e l ih =>
    refine ih ?_
    unfold placeNext
    split
    · next room =>
      rcases h pr e with same | ⟨p, added, _⟩
      · rw [same]; exact bound
      · rw [added]; simpa using room
    · exact bound

/-- The redo entries placed are among those of the order, each once and in its order. -/
theorem foldl_placeNext_redo (h : ∀ pr e, Extends e pr (place pr e)) (l : List OrderEntry) (pr : Progress) :
    ∃ m, (l.foldl (placeNext place) pr).placed.filterMap Placed.redo = pr.placed.filterMap Placed.redo ++ m ∧
      m.Sublist (redoEntries l) := by
  induction l generalizing pr with
  | nil => exact ⟨[], by simp, List.nil_sublist _⟩
  | cons e l ih =>
    have split : redoEntries (e :: l) = redoEntries [e] ++ redoEntries l := List.filterMap_append (l := [e])
    obtain ⟨m, placed, sub⟩ := ih (placeNext place pr e)
    rw [List.foldl_cons, placed, split]
    have passed (same : (placeNext place pr e).placed = pr.placed) :
        ∃ m', (placeNext place pr e).placed.filterMap Placed.redo ++ m = pr.placed.filterMap Placed.redo ++ m' ∧
          m'.Sublist (redoEntries [e] ++ redoEntries l) :=
      ⟨m, by rw [same], sub.trans (List.sublist_append_right _ _)⟩
    unfold placeNext at passed ⊢
    split at passed <;> split
    all_goals try contradiction
    · rcases h pr e with same | ⟨p, added, redo⟩
      · exact passed same
      · refine ⟨redoEntries [e] ++ m, ?_, (List.Sublist.refl _).append sub⟩
        rw [added, List.filterMap_append, List.append_assoc]
        cases e <;> simp [redoEntries] at redo ⊢ <;> simp [redo]
    · exact passed rfl

end Placement

theorem placeDownlink_length (r : Run) : (placeDownlink r).placed.length ≤ 16 :=
  foldl_placeNext_length (placeDl_extends r.snapshot) _ (Nat.zero_le _)

theorem placeUplink_length (r : Run) : (placeUplink r).placed.length ≤ 16 :=
  foldl_placeNext_length (placeUl_extends r.snapshot) _ (Nat.zero_le _)

/-- The redo entries that a run delivers are among those of its orders, each once. -/
theorem consumedTags_sublist (s : State) (r : Run) : (consumedTags (deliveredGrants s r)).Sublist r.redoOrigins := by
  have append (l m : List OrderEntry) : redoEntries (l ++ m) = redoEntries l ++ redoEntries m :=
    List.filterMap_append
  obtain ⟨m, down, mSub⟩ := foldl_placeNext_redo (placeDl_extends r.snapshot) r.dlOrder
    { grid := r.dlGrid, remaining := r.snapshot.allowance, placed := [], unplaced := 0 }
  obtain ⟨n, up, nSub⟩ := foldl_placeNext_redo (placeUl_extends r.snapshot) r.ulOrder
    { grid := r.ulGrid, remaining := r.snapshot.allowance, placed := [], unplaced := 0 }
  refine List.Sublist.map _ ((List.filter_sublist.filterMap _).trans ?_)
  rw [placedGrants, List.filterMap_append, append]
  exact List.Sublist.append (by rw [placeDownlink, down]; exact mSub) (by rw [placeUplink, up]; exact nSub)

theorem deliveredGrants_length (s : State) (r : Run) : (deliveredGrants s r).length ≤ 32 := by
  have down := placeDownlink_length r
  have up := placeUplink_length r
  refine (List.length_filter_le _ _).trans ?_
  rw [placedGrants, List.length_append]
  omega

end Sys2Proof.Machine
end


section
/-!
PROOFS. What a completion makes of the contexts, the OGT and the Redo List (R55–R57, R80), and with it the tags and the
outstanding grants.
-/
namespace Sys2Proof.Machine

/-! ## The contexts -/

/-- The grants of a context among those delivered. -/
def grantsFor (l : List Placed) (i : Index) : List Placed := l.filter fun p => p.context == i

theorem ctx_raiseOutstanding (l : List Placed) (s : State) (i : Index) :
    ctx (raiseOutstanding l s) i =
      { ctx s i with outstanding := (ctx s i).outstanding + (grantsFor l i).length } := by
  unfold raiseOutstanding
  induction l generalizing s with
  | nil => rfl
  | cons p l ih =>
    rw [List.foldl_cons, ih, addOutstanding, ctx_setCtx]
    by_cases h : i = p.context
    · subst h
      simp [grantsFor]
      omega
    · have h' : ¬p.context = i := fun e => h e.symm
      simp [grantsFor, h, h']

/-- The bytes a completion charges a context in a direction (R80). -/
def chargedBytes (l : List Placed) (i : Index) (d : Direction) : Nat := ((freshFor l i d).map Placed.bytes).sum

theorem charge_eq {i : Index} {d : Direction} {n : Nat} {s : State} (h : (ctx s i).state.attached = true) :
    charge i d n s = setCtx i ((ctx s i).withBacklog d ((ctx s i).backlog d - n)) s := by
  simp [charge, Context.takesAdjustment, h]

/-- The charge of delivered new data, whose contexts are attached. -/
theorem ctx_chargeGrants (l : List Placed) {s : State} (attached : ∀ p ∈ l, (ctx s p.context).state.attached = true)
    (i : Index) :
    ctx (chargeGrants l s) i =
      { ctx s i with
        dlBacklog := (ctx s i).dlBacklog - chargedBytes l i .dl
        ulBacklog := (ctx s i).ulBacklog - chargedBytes l i .ul } := by
  unfold chargeGrants
  induction l generalizing s with
  | nil => rfl
  | cons p l ih =>
    have rest {t : State} (same : ∀ j, (ctx t j).state = (ctx s j).state) :
        ∀ q ∈ l, (ctx t q.context).state.attached = true := fun q hq => by
      rw [same]; exact attached q (by simp [hq])
    cases redo : p.redo with
    | some e => simpa [redo, chargedBytes, freshFor] using ih (rest fun _ => rfl)
    | none =>
      have fresh : (p :: l).filter (fun q => q.redo.isNone) = p :: l.filter fun q => q.redo.isNone := by simp [redo]
      have state (j : Index) : (ctx (charge p.context p.direction p.bytes s) j).state = (ctx s j).state := by
        rw [charge_eq (attached p (by simp)), ctx_setCtx]
        split
        · next hj => subst hj; cases p.direction <;> rfl
        · rfl
      rw [fresh, List.foldl_cons, ih (rest state), charge_eq (attached p (by simp)), ctx_setCtx]
      by_cases h : i = p.context
      · subst h
        cases hd : p.direction <;>
          simp [chargedBytes, freshFor, redo, hd, Context.withBacklog, Context.backlog, Nat.sub_sub]
      · have h' : ¬p.context = i := fun e => h e.symm
        simp [h, h', chargedBytes, freshFor]

/-- The averages of the contexts that a list names, each once. -/
theorem ctx_foldl_served (f : SnapContext → Context → Context) (l : List SnapContext)
    (distinct : (l.map SnapContext.index).Nodup) (s : State) (i : Index) :
    ctx (l.foldl (fun t c => setCtx c.index (f c (ctx t c.index)) t) s) i =
      match l.find? fun c => c.index == i with
      | some c => f c (ctx s i)
      | none => ctx s i := by
  induction l generalizing s with
  | nil => rfl
  | cons c l ih =>
    obtain ⟨fresh, rest⟩ := List.nodup_cons.mp distinct
    rw [List.foldl_cons, ih rest, ctx_setCtx]
    by_cases h : i = c.index
    · subst h
      have gone : (l.find? fun x => x.index == c.index) = none := List.find?_eq_none.mpr fun x hx => by
        simpa using fun eq : x.index = c.index => fresh (eq ▸ List.mem_map_of_mem hx)
      simp [gone]
    · have h' : ¬c.index = i := fun e => h e.symm
      simp [h, h']

theorem ctx_updateAverages_outstanding (e : Epoch) (l : List Placed) (sn : Snapshot) (s : State) (i : Index) :
    (ctx (updateAverages e l sn s) i).outstanding = (ctx s i).outstanding ∧
      (ctx (updateAverages e l sn s) i).state = (ctx s i).state := by
  unfold updateAverages
  generalize (sn.contexts.filter fun c => c.state == .active && isLive s c) = contexts
  induction contexts generalizing s with
  | nil => exact ⟨rfl, rfl⟩
  | cons c contexts ih =>
    obtain ⟨outstanding, state⟩ := ih (setCtx c.index
      ((ctx s c.index).served e (freshFor l c.index .dl) (freshFor l c.index .ul)) s)
    rw [List.foldl_cons, outstanding, state, ctx_setCtx]
    split
    · next h => subst h; exact ⟨rfl, rfl⟩
    · exact ⟨rfl, rfl⟩

/-- A delivered grant's context is in the snapshot and live. -/
theorem mem_deliveredGrants {s : State} {r : Run} {p : Placed} (h : p ∈ deliveredGrants s r) :
    p ∈ placedGrants r ∧ ∃ c, r.snapshot.find p.context = some c ∧ isLive s c = true := by
  obtain ⟨placed, live⟩ := List.mem_filter.mp h
  refine ⟨placed, ?_⟩
  unfold survives at live
  split at live
  · next c hc => exact ⟨c, hc, live⟩
  · simp at live

theorem Snapshot.find_index {sn : Snapshot} {i : Index} {c : SnapContext} (h : sn.find i = some c) : c.index = i := by
  simpa using List.find?_some h

theorem deliveredGrants_attached {s : State} {r : Run} {p : Placed} (h : p ∈ deliveredGrants s r) :
    (ctx s p.context).state.attached = true := by
  obtain ⟨_, c, found, live⟩ := mem_deliveredGrants h
  simp only [isLive, Bool.and_eq_true, Snapshot.find_index found] at live
  exact live.1

theorem ctx_completeRun (r : Run) (s : State) (i : Index) : ctx (completeRun r s) i = ctx (handedOff r s) i :=
  ctx_congr (by simp [completeRun_eq, planQueued]) i

/-- The contexts as the deliveries leave them, before the averages: grants outstanding and backlogs charged. -/
def Context.delivered (l : List Placed) (i : Index) (c : Context) : Context :=
  { c with
    outstanding := c.outstanding + (grantsFor l i).length
    dlBacklog := c.dlBacklog - chargedBytes l i .dl
    ulBacklog := c.ulBacklog - chargedBytes l i .ul }

/-- The state of a completion before the averages. -/
def deliveredState (r : Run) (s : State) : State :=
  let l := deliveredGrants s r
  consumeRedo l (chargeGrants l (raiseOutstanding l (enterBatch r.target l (discardRun s))))

theorem handedOff_eq (r : Run) (s : State) :
    handedOff r s =
      handFigures r.target (deliveredGrants s r)
        (updateAverages r.target (deliveredGrants s r) r.snapshot (deliveredState r s)) := rfl

theorem ctx_deliveredState (r : Run) (s : State) (i : Index) :
    ctx (deliveredState r s) i = (ctx s i).delivered (deliveredGrants s r) i := by
  have entered (j : Index) : ctx (enterBatch r.target (deliveredGrants s r) (discardRun s)) j = ctx s j := rfl
  have raised := ctx_raiseOutstanding (deliveredGrants s r)
    (enterBatch r.target (deliveredGrants s r) (discardRun s))
  have charged := ctx_chargeGrants (deliveredGrants s r)
    (s := raiseOutstanding (deliveredGrants s r) (enterBatch r.target (deliveredGrants s r) (discardRun s)))
    (fun p hp => by rw [raised, entered]; exact deliveredGrants_attached hp) i
  rw [raised, entered] at charged
  exact charged

theorem completeRun_outstanding (r : Run) (s : State) (i : Index) :
    (ctx (completeRun r s) i).outstanding = (ctx s i).outstanding + (grantsFor (deliveredGrants s r) i).length := by
  rw [ctx_completeRun, handedOff_eq]
  refine (ctx_updateAverages_outstanding ..).1.trans ?_
  rw [ctx_deliveredState]
  rfl

/-! ## The OGT and the Redo List -/

/-- The OGT entries of a completion (R80). -/
def enteredGrants (r : Run) (s : State) : List OgtEntry :=
  (deliveredGrants s r).zipIdx.map fun pn => trackedGrant r.target s.config.window pn.1 pn.2

theorem completeRun_tracking (r : Run) (s : State) :
    (completeRun r s).tracking =
      { s.tracking with
        ring := s.tracking.ring.set (ringIndex r.target) { target := some r.target, status := .sent }
        ogt := s.tracking.ogt ++ enteredGrants r s
        redo := s.tracking.redo.filter fun e => !(consumedTags (deliveredGrants s r)).contains e.origin } := by
  simp [completeRun_eq, planQueued, handedOff, enterBatch, consumeRedo, enteredGrants]

end Sys2Proof.Machine
end


section
/-!
PROOFS. The tags of a completion are new, the origins it takes pass from the Redo List to the OGT, and eleven targets
have 352 tags.
-/
namespace Sys2Proof.Machine

/-! ## The entries of a completion -/

theorem enteredGrants_tags (r : Run) (s : State) :
    (enteredGrants r s).map OgtEntry.tag =
      (List.range (deliveredGrants s r).length).map fun n => { epoch := r.target, index := n } := by
  have indices : (deliveredGrants s r).zipIdx.map Prod.snd = List.range (deliveredGrants s r).length := by
    rw [List.zipIdx_map_snd, List.range_eq_range']
  rw [← indices, enteredGrants, List.map_map, List.map_map]
  rfl

theorem enteredGrants_contexts (r : Run) (s : State) :
    (enteredGrants r s).map OgtEntry.context = (deliveredGrants s r).map Placed.context := by
  conv_rhs => rw [← List.zipIdx_map_fst 0 (deliveredGrants s r)]
  rw [enteredGrants, List.map_map, List.map_map]
  rfl

theorem enteredGrants_origins (r : Run) (s : State) :
    ((enteredGrants r s).filterMap OgtEntry.origin).map RedoOrigin.tag = consumedTags (deliveredGrants s r) := by
  have origins : (enteredGrants r s).filterMap OgtEntry.origin =
      (deliveredGrants s r).filterMap fun p =>
        p.redo.map fun e => { tag := e.origin, deadline := e.deadline, order := e.order } := by
    conv_rhs => rw [← List.zipIdx_map_fst 0 (deliveredGrants s r)]
    rw [enteredGrants, List.filterMap_map, List.filterMap_map]
    rfl
  rw [origins, consumedTags, List.map_filterMap, List.map_filterMap]
  congr 1
  funext p
  cases p.redo <;> rfl

theorem enteredGrants_length (r : Run) (s : State) : (enteredGrants r s).length = (deliveredGrants s r).length := by
  simp [enteredGrants]

theorem enteredGrants_tag {r : Run} {s : State} {g : OgtEntry} (h : g ∈ enteredGrants r s) :
    g.tag.epoch = r.target ∧ g.tag.index < 32 := by
  have mem : g.tag ∈ (enteredGrants r s).map OgtEntry.tag := List.mem_map_of_mem h
  rw [enteredGrants_tags] at mem
  obtain ⟨n, hn, eq⟩ := List.mem_map.mp mem
  have bound := deliveredGrants_length s r
  rw [← eq]
  exact ⟨rfl, (List.mem_range.mp hn).trans_le bound⟩

theorem enteredGrants_tags_nodup (r : Run) (s : State) : ((enteredGrants r s).map OgtEntry.tag).Nodup := by
  rw [enteredGrants_tags]
  exact List.nodup_range.map fun a b h => (Tag.mk.inj h).2

theorem enteredGrants_count (r : Run) (s : State) (i : Index) :
    ((enteredGrants r s).filter fun g => g.context == i).length = (grantsFor (deliveredGrants s r) i).length := by
  have entries : ((enteredGrants r s).filter fun g => g.context == i).length =
      ((enteredGrants r s).map OgtEntry.context).countP (· == i) := by
    rw [List.countP_map, List.countP_eq_length_filter]
    rfl
  rw [entries, enteredGrants_contexts, List.countP_map, List.countP_eq_length_filter]
  rfl

/-! ## The tags after a completion -/

/-- With a target that no tag has, the tags stay distinct: the origins taken pass to the OGT and the new tags are of the
target (R80). -/
theorem completeRun_tagsDistinct {r : Run} {s : State} (run : s.engine.run = some r) (distinct : s.TagsDistinct)
    (fresh : s.RunRedoFresh) (ogtOther : ∀ g ∈ s.tracking.ogt, g.tag.epoch ≠ r.target)
    (other : ∀ tag ∈ r.redoOrigins ++ s.tracking.redo.map RedoEntry.origin ++
      (s.tracking.ogt.filterMap OgtEntry.origin).map RedoOrigin.tag, tag.epoch ≠ r.target) :
    (completeRun r s).TagsDistinct := by
  have order := fresh r run
  have taken := consumedTags_sublist s r
  have news := enteredGrants_tags_nodup r s
  have target {a : Tag} (h : a ∈ (enteredGrants r s).map OgtEntry.tag) : a.epoch = r.target := by
    obtain ⟨g, hg, rfl⟩ := List.mem_map.mp h
    exact (enteredGrants_tag hg).1
  have left : ((s.tracking.redo.filter fun e => !(consumedTags (deliveredGrants s r)).contains e.origin).map
      RedoEntry.origin).Sublist (s.tracking.redo.map RedoEntry.origin) := List.filter_sublist.map _
  have gone {a : Tag} (h : a ∈ consumedTags (deliveredGrants s r)) :
      a ∉ (s.tracking.redo.filter fun e => !(consumedTags (deliveredGrants s r)).contains e.origin).map
        RedoEntry.origin := by
    intro mem
    obtain ⟨e, he, rfl⟩ := List.mem_map.mp mem
    simpa [h] using (List.mem_filter.mp he).2
  rw [State.TagsDistinct, completeRun_tracking]
  dsimp only
  rw [List.filterMap_append, List.map_append, List.map_append, enteredGrants_origins]
  rw [State.TagsDistinct, List.nodup_iff_count_le_one] at distinct
  rw [List.nodup_iff_count_le_one] at order news ⊢
  intro a
  have bound := distinct a
  have orderBound := order a
  have newBound := news a
  have takenCount := taken.count_le a
  have leftCount := left.count_le a
  simp only [List.count_append] at bound orderBound ⊢
  by_cases ht : a.epoch = r.target
  · have free {l : List Tag} (sub : ∀ x ∈ l, x.epoch ≠ r.target) : l.count a = 0 :=
      List.count_eq_zero.mpr fun mem => sub a mem ht
    have c1 := free (l := r.redoOrigins) fun x hx => other x (by simp [hx])
    have c2 := free (l := s.tracking.redo.map RedoEntry.origin) fun x hx => other x (by
      simp only [List.mem_append]; exact .inl (.inr hx))
    have c3 := free (l := (s.tracking.ogt.filterMap OgtEntry.origin).map RedoOrigin.tag) fun x hx => other x (by
      simp only [List.mem_append]; exact .inr hx)
    have c4 := free (l := s.tracking.ogt.map OgtEntry.tag) fun x hx => by
      obtain ⟨g, hg, rfl⟩ := List.mem_map.mp hx
      exact ogtOther g hg
    omega
  · have none : ((enteredGrants r s).map OgtEntry.tag).count a = 0 :=
      List.count_eq_zero.mpr fun mem => ht (target mem)
    by_cases hc : a ∈ consumedTags (deliveredGrants s r)
    · have := List.count_eq_zero.mpr (gone hc)
      omega
    · have := List.count_eq_zero.mpr hc
      omega

/-- An origin of the Redo List stays there or passes to the OGT. -/
theorem completeRun_origin_mem {r : Run} {s : State} {tag : Tag} (h : tag ∈ s.tracking.redo.map RedoEntry.origin) :
    tag ∈ (completeRun r s).tracking.redo.map RedoEntry.origin ∨
      tag ∈ ((completeRun r s).tracking.ogt.filterMap OgtEntry.origin).map RedoOrigin.tag := by
  rw [completeRun_tracking]
  dsimp only
  rw [List.filterMap_append, List.map_append, enteredGrants_origins]
  obtain ⟨e, he, rfl⟩ := List.mem_map.mp h
  by_cases hc : e.origin ∈ consumedTags (deliveredGrants s r)
  · exact .inr (List.mem_append_right _ hc)
  · exact .inl (List.mem_map_of_mem (List.mem_filter.mpr ⟨he, by simpa using hc⟩))

/-! ## Eleven targets -/

/-- The tags of eleven successive targets with plan indices below 32 are 352 (R98). -/
theorem length_le_of_targets (first : Epoch) (l : List OgtEntry) (distinct : (l.map OgtEntry.tag).Nodup)
    (near : ∀ g ∈ l, g.tag.index < 32 ∧ (g.tag.epoch - first).val ≤ 10) : l.length ≤ 352 := by
  have place : ((l.map OgtEntry.tag).map fun t => ((t.epoch - first).val, t.index)).Nodup := by
    refine distinct.map fun a b h => ?_
    obtain ⟨epoch, index⟩ := Prod.mk.inj h
    have same : a.epoch = b.epoch := sub_left_inj.mp (Fin.val_inj.mp epoch)
    cases a; cases b; simp_all
  have inside : ((l.map OgtEntry.tag).map fun t => ((t.epoch - first).val, t.index)).toFinset ⊆
      Finset.range 11 ×ˢ Finset.range 32 := by
    intro x hx
    simp only [List.mem_toFinset, List.mem_map] at hx
    obtain ⟨_, ⟨g, hg, rfl⟩, rfl⟩ := hx
    obtain ⟨index, epoch⟩ := near g hg
    simp only [Finset.mem_product, Finset.mem_range]
    exact ⟨by omega, index⟩
  have card := Finset.card_le_card inside
  rw [List.toFinset_card_of_nodup place] at card
  simpa using card

/-- Settles O52: entries leave one at a time, a completion's entries have tags of its target, and eleven targets have
352 tags. -/
theorem trackingStaysConsistent : Obligations.TrackingStaysConsistent := by
  refine ⟨fun c s t other counts tags h => ?_, fun r s t idle run h counts tags apart => ?_, length_le_of_targets⟩
  · obtain ⟨consistent, fresh, sub⟩ := exec_consumes other ⟨counts, tags⟩ h
    refine ⟨consistent.1, consistent.2, fresh, by simpa [State.identities] using sub.length_le, fun g hg => ?_⟩
    obtain ⟨g', hg', same⟩ := List.mem_map.mp (sub.subset (List.mem_map_of_mem (f := OgtEntry.identity) hg))
    obtain ⟨tag, context, _⟩ := Prod.mk.inj same |>.imp_right Prod.mk.inj
    exact ⟨g', hg', tag, context⟩
  · have done : t = if planFits s then completeRun r s else s := by
      cases h
      rw [finishPulse_idle idle, finishRun, run]
    split at done
    · subst done
      have tracking := completeRun_tracking r s
      have ogt : (completeRun r s).tracking.ogt = s.tracking.ogt ++ enteredGrants r s := by rw [tracking]
      refine ⟨fun i => ?_, ?_, ?_, fun g hg => ?_, fun _ x hx => by simp at hx, fun distinct fresh other =>
        ⟨completeRun_tagsDistinct run distinct fresh apart other, fun tag => completeRun_origin_mem⟩⟩
      · rw [completeRun_outstanding, counts i, ogt, List.filter_append, List.length_append, enteredGrants_count]
      · rw [ogt, List.map_append]
        refine List.Nodup.append tags (enteredGrants_tags_nodup r s) fun a old new => ?_
        obtain ⟨g, hg, rfl⟩ := List.mem_map.mp old
        obtain ⟨g', hg', same⟩ := List.mem_map.mp new
        exact apart g hg (same ▸ (enteredGrants_tag hg').1)
      · rw [ogt, List.length_append, enteredGrants_length]
        exact Nat.add_le_add_left (deliveredGrants_length s r) _
      · rw [ogt] at hg
        exact (List.mem_append.mp hg).imp_right enteredGrants_tag
    · subst done
      exact ⟨counts, tags, Nat.le_add_right _ _, fun g hg => .inl hg, id, fun distinct _ _ =>
        ⟨distinct, fun tag => .inl⟩⟩

end Sys2Proof.Machine
end


section
/-!
PROOFS. The queue of commands, the finish of a pulse's work, the inbound FIFO and the refusal in UNCONFIGURED.
-/
namespace Sys2Proof.Machine

open Sys2Proof

/-! ## The queue of commands -/

/-- Settles O1, by the definition of a step. -/
theorem stepRunsFrontCommand : Obligations.StepRunsFrontCommand := by
  intro c rest s pending
  simp [step, pending]

/-! ## The owner of a record command -/

/-- The work of the block that owns a record (R161). -/
def ownerOf : Record → State → State
  | .config b => takeConfig b
  | .realign => whenConfigured .realign acceptRealign
  | .attach i ident cls weight rtd => takeAttach i (ident % 2 ^ 24) (cls % 4) (clampWeight weight) (min rtd 1000)
  | .release i => takeRelease i
  | .dlData i n => whenConfigured (.dlData i n) (applyReport i (addDlData i (n % 2 ^ 24)))
  | .ulBuf i n => whenConfigured (.ulBuf i n) (applyReport i (writeUlBuf i (n % 2 ^ 24)))
  | .channel i d u => whenConfigured (.channel i d u) (applyReport i (writeGrades i d u))
  | .range i rtd => whenConfigured (.range i rtd) (applyReport i (writeRange i (min rtd 1000)))
  | .late i e => whenConfigured (.late i e) (applyReport i (countLate i (min e 255)))
  | .feedback e p f => whenConfigured (.feedback e p f) (takeFeedback e p f)
  | .receipt e => whenConfigured (.receipt e) (takeReceipt e)
  | .floor n => whenConfigured (.floor n) (setRequestedFloor (min n 3))
  | .query i => takeQuery i
  | .statusReq z => takeStatusReq z
  | .clear m => whenConfigured (.clear m) (clearFlags m)

/-- A record command hands its record to the owner through the FIFO. -/
theorem exec_record {c : Instr} {r : Record} (h : c.record? = some r) (s : State) :
    exec c s = .next (handOver r (ownerOf r) s) := by
  cases c <;> cases h <;> rfl

/-- A record command whose record stands at the head. -/
theorem exec_hands {c : Instr} {r : Record} {rest : List Record} {s : State} (hc : c.record? = some r)
    (hr : outOfRange r = false) (h : s.Hands (clampRecord r) rest) :
    exec c s = .next (ownerOf r (setFifo rest s)) := by
  rw [exec_record hc, handOver_of_hands _ hr h]

theorem whenConfigured_unconfigured {r : Record} (owner : State → State) {s : State}
    (h : s.align.opState = .unconfigured) :
    whenConfigured r owner s = setEvent .linkError (recordKind r).code.toNat .notReady s := by
  simp [whenConfigured, refuseNotReady, kindSubject, h]

theorem whenConfigured_configured {r : Record} (owner : State → State) {s : State}
    (h : s.align.opState ≠ .unconfigured) : whenConfigured r owner s = owner s := by
  simp [whenConfigured, h]

/-- Settles O4: the owner of each record but three finds UNCONFIGURED and refuses. -/
theorem unconfiguredRefusesRecords : Obligations.UnconfiguredRefusesRecords := by
  intro c r rest s hc h inRange op
  have op' : (setFifo rest s).align.opState = .unconfigured := op
  rw [exec_hands hc inRange h]
  refine ⟨fun refused => ?_, ?_, ?_⟩
  · congr 1
    cases r with
    | config | query | statusReq | attach | release => cases refused
    | realign | dlData | ulBuf | channel | range | late | feedback | receipt | floor | clear =>
      exact whenConfigured_unconfigured _ op'
  · rintro i d k w t rfl
    simp only [ownerOf, takeAttach, op', if_true]
    rfl
  · rintro i rfl
    simp only [ownerOf, takeRelease_unconfigured op']
    rfl

/-! ## The inbound FIFO -/

theorem isHeld_iff (r : Record) (s : State) :
    isHeld r s = true ↔
      (recordKind r = .config ∨ recordKind r = .query ∨ recordKind r = .statusReq) ∧ 32 - s.link.queue.length ≤ 4 := by
  have needs : needsReply r = true ↔
      recordKind r = .config ∨ recordKind r = .query ∨ recordKind r = .statusReq := by
    cases r <;> simp [needsReply, recordKind]
  simp [isHeld, needs, LinkPort.outboundFree, Config.outboundDepth, Config.replyReserve]

theorem recordArrived_eq (s : State) : recordArrived s = s.arrived := rfl

theorem joinFifo_room {r : Record} {s : State} (h : s.link.fifo.length < 64) :
    joinFifo r s = setFifo (s.link.fifo ++ [r]) s := by
  simp [joinFifo, Config.fifoDepth, h]

theorem joinFifo_overrun {r : Record} {s : State} (h : 64 ≤ s.link.fifo.length) :
    joinFifo r s = setEvent .linkOverrun (kindSubject r) .none (advance .overruns 1 s) := by
  simp [joinFifo, Config.fifoDepth, Nat.not_lt.mpr h]

@[simp] theorem recordKind_clamp (r : Record) : recordKind (clampRecord r) = recordKind r := by cases r <;> rfl

@[simp] theorem outOfRange_clamp (r : Record) : outOfRange (clampRecord r) = outOfRange r := by cases r <;> rfl

theorem outOfRange_iff (r : Record) :
    outOfRange r = true ↔
      (∃ i d u, r = .channel i d u ∧ (15 < d ∨ 15 < u)) ∨ ∃ e p f, r = .feedback e p f ∧ 31 < p := by
  cases r <;> simp [outOfRange]

/-- Settles O3, by what the FIFO holds when the record arrives. -/
theorem recordCommandMeetsFifo : Obligations.RecordCommandMeetsFifo := by
  intro c r s hc idle wants full joined
  have held : isHeld r s = true ↔ wants ∧ full := isHeld_iff r s
  have joins (room : s.link.fifo.length < 64) : joinFifo (clampRecord r) (recordArrived s) = joined := by
    rw [joinFifo_room (s := recordArrived s) room]
    simp only [joined, setFifo, readyLevel_eq, List.length_append, List.length_singleton]
    rfl
  rw [exec_record hc]
  refine ⟨fun out => ?_, fun inRange => ⟨fun empty ready free => ?_, fun empty want no => ?_, fun rest head want no => ?_,
    fun head rest first other => ⟨fun room => ?_, fun fullFifo => ?_⟩⟩⟩
  · rw [handOver_outOfRange _ idle ((outOfRange_iff r).mpr out)]
    rfl
  · have notHeld : isHeld r s = false := Bool.eq_false_of_not_eq_true fun h => free (held.mp h)
    have hands : (setFifo [clampRecord r] s.arrived).Hands (clampRecord r) [] := by
      refine ⟨idle, rfl, ?_⟩
      rw [isHeld_clamp]
      exact notHeld
    have back : setFifo [] (setFifo [clampRecord r] s.arrived) = recordArrived s := by
      have kept : setFifo [] (setFifo [clampRecord r] s.arrived) =
          { s.arrived with link := { s.arrived.link with fifo := s.link.fifo, ready := s.link.ready } } := by
        rw [empty, ready]
        rfl
      rw [kept]
      rfl
    rw [exec_hands hc inRange hands, back, handOver_empty _ idle inRange empty notHeld]
  · rw [handOver_empty_held _ idle inRange empty (held.mpr ⟨want, no⟩), joins (by rw [empty]; decide)]
  · rw [handOver_waits _ idle inRange head (held.mpr ⟨want, no⟩)]
  · rw [handOver_behind _ idle inRange first other, joins room]
  · rw [handOver_behind _ idle inRange first other, joinFifo_overrun (s := recordArrived s) fullFifo]
    simp only [kindSubject, recordKind_clamp]
    rfl

end Sys2Proof.Machine
end


section
/-!
PROOFS. The Event Unit: setting an event, advancing a counter, losing bytes and clearing flags (R163, R166–R169).
-/
namespace Sys2Proof.Machine

open Sys2Proof

/-! ## Setting an event and advancing a counter -/

theorem setEvent_link (k : EventKind) (n : Nat) (c : Code) (s : State) :
    (setEvent k n c s).link =
      if s.events.enabled k = true ∧ 8 < 32 - s.link.queue.length then
        { s.link with
          queue := s.link.queue ++ [.notice { event := k, subject := n, code := c, epoch := s.align.epoch }] }
      else s.link := by
  simp only [setEvent, offerNotice_eq, Config.noticeReserve, Config.outboundDepth]
  by_cases h : s.events.enabled k = true <;> by_cases room : 8 < 32 - s.link.queue.length <;> simp [h, room]

theorem advance_eq (c : Counter) (n : Nat) (s : State) :
    advance c n s =
      if s.events.counter c < 32768 ∧ 32768 ≤ s.events.counter c + n then
        setEvent .counterHalf c.num.val .none { s with events := s.events.advanced c n }
      else { s with events := s.events.advanced c n } := by
  unfold advance
  dsimp only
  have passes : (s.events.counter c < Config.counterHalf ∧
      Config.counterHalf ≤ (s.events.advanced c n).counter c) ↔
        s.events.counter c < 32768 ∧ 32768 ≤ s.events.counter c + n := by
    rw [counter_advanced, if_pos rfl]
    simp only [Config.counterHalf, Config.counterMax]
    omega
  simp only [passes]

theorem advance_events (c : Counter) (n : Nat) (s : State) :
    (advance c n s).events =
      { s.events with
        counters := (advance c n s).events.counters
        flags := (advance c n s).events.flags
        alert := (advance c n s).events.alert } := by
  rw [advance_eq]
  split <;> rfl

/-- Settles O5, by the two operations that report and their frames. -/
theorem settingEventsAndAdvancingCounters : Obligations.SettingEventsAndAdvancingCounters := by
  refine ⟨fun k n c s => ⟨fun j => flag_raise _ _ _, rfl, rfl, setEvent_link k n c s, rfl⟩, fun c n s => ?_,
    fun n s => ?_⟩
  · refine ⟨advance_eq c n s, fun d => counter_advance c d n s, fun j => ?_, advance_events c n s,
      (advance_reports c n s).frame⟩
    have passes : (s.events.counter c < 32768 ∧ 32768 ≤ min 65535 (s.events.counter c + n)) ↔
        s.events.counter c < 32768 ∧ 32768 ≤ s.events.counter c + n := by omega
    rw [flag_advance, Bool.and_assoc]
    simp only [Config.counterHalf, Config.counterMax, passes, Bool.decide_and]
  · refine ⟨rfl, remainder_loseBytes n s, fun d => ?_, (loseBytes_reports n s).frame⟩
    rw [counter_loseBytes]
    by_cases h : d = .bytesLost <;> simp [h, Config.counterMax, Config.lostUnit]

/-! ## Clearing flags -/

theorem getLsbD_clearOne (s : State) (mask : BitVec 32) (flags : BitVec 29) (k j : EventKind) :
    (clearOne s mask flags k).getLsbD j.num =
      (flags.getLsbD j.num && !(decide (j = k) && (mask.getLsbD k.num && !causePersists s k))) := by
  have hj := j.num_lt
  have bit : k.bit.getLsbD j.num = decide (j = k) := by
    have raised := flag_raise { EventUnit.reset with flags := 0 } k j
    simpa [EventUnit.raise, EventUnit.judged, EventUnit.flag] using raised
  unfold clearOne
  split
  · next h => simp only [BitVec.getLsbD_and, BitVec.getLsbD_not, bit, hj, h, decide_true, Bool.true_and, Bool.and_true]
  · next h => simp [h]

theorem getLsbD_foldl_clearOne (s : State) (mask : BitVec 32) (l : List EventKind) (flags : BitVec 29) (j : EventKind) :
    (l.foldl (clearOne s mask) flags).getLsbD j.num =
      (flags.getLsbD j.num && !(decide (j ∈ l) && (mask.getLsbD j.num && !causePersists s j))) := by
  induction l generalizing flags with
  | nil => simp
  | cons k l ih =>
    rw [List.foldl_cons, ih, getLsbD_clearOne]
    by_cases h : j = k
    · subst h
      cases mask.getLsbD j.num <;> cases causePersists s j <;> simp
    · simp [h]

theorem EventKind.mem_all (k : EventKind) : k ∈ EventKind.all := by cases k <;> decide

/-- CLEAR's effect on one flag (R168). -/
theorem flag_clearFlags (mask : BitVec 32) (s : State) (k : EventKind) :
    (clearFlags mask s).events.flag k = (s.events.flag k && !(mask.getLsbD k.num && !causePersists s k)) := by
  simp [clearFlags, EventUnit.judged, EventUnit.flag, getLsbD_foldl_clearOne, EventKind.mem_all]

/-- Settles O6, by the effect of CLEAR on one flag and the table of causes. -/
theorem clearClearsFlags : Obligations.ClearClearsFlags := by
  intro mask rest s h persists
  have causes (k : EventKind) : causePersists (setFifo rest s) k = persists k := by
    have half : s.events.anyHalf = (List.finRange 14).any fun c => decide (32768 ≤ s.events.counters.get c) := by
      rw [EventUnit.anyHalf, Table.list_eq_map, List.any_map]
      rfl
    cases k <;> simp [causePersists, persists, half, beq_eq_decide]
  rw [exec_hands rfl rfl h]
  refine ⟨fun op => by rw [ownerOf, whenConfigured_unconfigured (s := setFifo rest s) _ op]; rfl, fun op => ?_⟩
  refine ⟨(clearFlags mask (setFifo rest s)).events, ?_, fun k => ?_, rfl, rfl⟩
  · rw [ownerOf, whenConfigured_configured (s := setFifo rest s) _ op]
    rfl
  · rw [flag_clearFlags, causes]
    rfl

/-! ## ATTACH and stray reports -/

/-- Settles O9, by the four checks in order. -/
theorem attachIsDecided : Obligations.AttachIsDecided := by
  intro i ident cls weight rtd rest s h
  rw [exec_hands rfl rfl h]
  refine ⟨fun op => ?_, fun op free room => ?_, fun op used => ?_, fun op free full => ?_⟩
  · simp only [ownerOf, takeAttach, setFifo_keeps, op, if_true]
    rfl
  · have count : attachedCount (setFifo rest s) = attachedCount s := rfl
    simp only [ownerOf, takeAttach, setFifo_keeps, op, if_false, ctx_setFifo, free, count, not_le.mpr room,
      ne_eq, not_true_eq_false]
    rfl
  · simp only [ownerOf, takeAttach, setFifo_keeps, op, if_false, ctx_setFifo]
    rw [if_pos used]
    rfl
  · have count : attachedCount (setFifo rest s) = attachedCount s := rfl
    simp only [ownerOf, takeAttach, setFifo_keeps, op, if_false, ctx_setFifo, free, count, full, ne_eq,
      not_true_eq_false, le_refl, if_true]
    rfl

theorem applyReport_stray {i : Index} (apply : State → State) {s : State}
    (h : (ctx s i).state = .free ∨ (ctx s i).state = .closing) : applyReport i apply s = advance .strayReports 1 s := by
  rcases h with h | h <;> simp [applyReport, h, ContextState.attached]

/-- Settles O11: each report's owner first looks whether its context is attached. -/
theorem reportOnFreeOrClosingIsStray : Obligations.ReportOnFreeOrClosingIsStray := by
  intro c r i rest s hc named h inRange op state
  have stray (apply : State → State) :
      whenConfigured r (applyReport i apply) (setFifo rest s) = advance .strayReports 1 (setFifo rest s) := by
    rw [whenConfigured_configured (s := setFifo rest s) _ op, applyReport_stray (s := setFifo rest s) _ state]
  rw [exec_hands hc inRange h]
  congr 1
  cases r <;> cases named <;> exact stray _

end Sys2Proof.Machine
end


section
/-!
PROOFS. Charges, refunds and returns, and the answers to plans: RECEIPT, FEEDBACK and a failed grant (R31, R88, R91,
R94, R95).
-/
namespace Sys2Proof.Machine

open Sys2Proof

/-! ## Charges and refunds -/

theorem charge_unattached {i : Index} {s : State} (d : Direction) (n : Nat)
    (h : (ctx s i).state.attached = false) : charge i d n s = s := by
  simp [charge, Context.takesAdjustment, h]

theorem refund_unattached {i : Index} {s : State} (d : Direction) (n : Nat)
    (h : (ctx s i).state.attached = false) : refund i d n s = s := by
  simp [refund, Context.takesAdjustment, h]

theorem refund_attached {i : Index} {s : State} (d : Direction) (n : Nat) (h : (ctx s i).state.attached = true) :
    refund i d n s =
      if 1048575 < (ctx s i).backlog d + n then
        setEvent .dlDataSaturated i.val .refund (setCtx i ((ctx s i).withBacklog d 1048575) s)
      else setCtx i ((ctx s i).withBacklog d ((ctx s i).backlog d + n)) s := by
  by_cases above : 1048575 < (ctx s i).backlog d + n
  · have passes : Config.backlogMax < (ctx s i).backlog d + n := above
    have held : min Config.backlogMax ((ctx s i).backlog d + n) = 1048575 := Nat.min_eq_left above.le
    simp only [refund, Context.takesAdjustment, h, passes, above, held, if_true]
  · have stays : ¬Config.backlogMax < (ctx s i).backlog d + n := above
    have held : min Config.backlogMax ((ctx s i).backlog d + n) = (ctx s i).backlog d + n :=
      Nat.min_eq_right (not_lt.mp above)
    simp only [refund, Context.takesAdjustment, h, stays, above, held, if_true, if_false]

/-! ## A grant that the Redo List takes, or does not -/

theorem addRedo_events (e : RedoEntry) (s : State) (k : EventKind) :
    (addRedo e s).events.flag k =
      (s.events.flag k || (decide (k = .redoNearFull) && decide (s.tracking.redo.length = 43))) := by
  rw [addRedo_flag]
  congr 3
  exact propext (by omega)

/-- Settles O14: charges and refunds write one backlog, and a return is decided check by check. -/
theorem chargesRefundsAndReturns : Obligations.ChargesRefundsAndReturns := by
  refine ⟨fun i d n s => ?_, fun n g o s => ?_⟩
  · refine ⟨fun attached => ?_, fun other => ?_⟩
    · rw [charge_eq attached, refund_attached d n attached]
      cases d <;> exact ⟨rfl, rfl⟩
    · have unattached : (ctx s i).state.attached = false := by rcases other with h | h <;> rw [h] <;> rfl
      exact ⟨charge_unattached d n unattached, refund_unattached d n unattached⟩
  · dsimp only
    unfold returnGrant
    split
    · rfl
    · split
      · next late => simp [earlier, late, dropGrant]
      · next onTime =>
        split
        · next full => simp [earlier, onTime, redoFull, Config.redoDepth, full, dropGrant]
        · next room =>
          simp only [earlier, onTime, redoFull, Config.redoDepth, room, decide_false, if_false, Bool.false_eq_true]
          exact ⟨by rw [addRedo_tracking], by rw [addRedo_tracking]; exact insertRedo_perm _ _, by simp,
            by rw [addRedo_tracking], addRedo_counters _ _, addRedo_events _ _⟩

/-- Settles O17, check by check. -/
theorem failedGrantIsDecided : Obligations.FailedGrantIsDecided := by
  intro g s
  dsimp only
  unfold failGrant
  split
  · rfl
  · split
    · next full => simp [redoFull, Config.redoDepth, full, dropGrant]
    · next room =>
      split
      · next limit => simp [redoFull, Config.redoDepth, room, dropGrant]
      · next below =>
        simp only [redoFull, Config.redoDepth, room, decide_false, if_false, Bool.false_eq_true]
        exact ⟨by rw [addRedo_tracking], by rw [addRedo_tracking]; exact insertRedo_perm _ _, by simp,
          by rw [addRedo_tracking], addRedo_counters _ _, addRedo_events _ _⟩

/-! ## RECEIPT and FEEDBACK -/

/-- Settles O15, by the record at the target's place of the ring. -/
theorem receiptByBatchRecord : Obligations.ReceiptByBatchRecord := by
  intro e rest s h b
  have record : batchOf (setFifo rest s) e = b := rfl
  rw [exec_hands rfl rfl h]
  have configured (op : s.align.opState ≠ .unconfigured) :
      ownerOf (.receipt e) (setFifo rest s) = takeReceipt e (setFifo rest s) :=
    whenConfigured_configured (s := setFifo rest s) _ op
  refine ⟨fun op => ?_, fun op target sent => ?_, fun op target committed => ?_, fun op target void => ?_,
    fun op target missed => ?_, fun op other => ?_⟩
  · rw [ownerOf, whenConfigured_unconfigured (s := setFifo rest s) _ op]
    rfl
  · simp only [configured op, takeReceipt, record, target, sent, if_true]
    rfl
  · simp only [configured op, takeReceipt, record, target, committed, if_true]
  · simp only [configured op, takeReceipt, record, target, void, if_true]
    rfl
  · simp only [configured op, takeReceipt, record, target, missed, if_true]
    rfl
  · simp only [configured op, takeReceipt, record, other, if_false]
    rfl

/-- A grant of a context gone: outstanding falls, and a CLOSING context that reaches 0 is FREE (R20). -/
theorem dropOutstanding_eq (i : Index) (s : State) :
    dropOutstanding i s =
      if (ctx s i).state = .closing ∧ (ctx s i).outstanding - 1 = 0 then
        setEvent .released i.val .done (setCtx i (ctx s i).freed s)
      else setCtx i { ctx s i with outstanding := (ctx s i).outstanding - 1 } s := by
  simp only [dropOutstanding, Bool.and_eq_true, beq_iff_eq]
  split
  · simp [releaseDone, enterFree, Context.freed]
  · rfl

/-- Settles O16, by the entry that the tag finds. -/
theorem feedbackByEntry : Obligations.FeedbackByEntry := by
  intro e planIndex fail rest s h
  have inRange (small : planIndex ≤ 31) : outOfRange (.feedback e planIndex fail) = false := by
    simpa [outOfRange] using small
  refine ⟨fun large => ?_, fun small op => ?_, fun small op => ?_⟩
  · rw [exec_record rfl, handOver_outOfRange _ h.1 (by simpa [outOfRange] using large)]
    rfl
  · rw [exec_hands rfl (inRange small) h, ownerOf, whenConfigured_unconfigured (s := setFifo rest s) _ op]
    rfl
  · intro tag
    rw [exec_hands rfl (inRange small) h, ownerOf, whenConfigured_configured (s := setFifo rest s) _ op]
    refine ⟨fun g found committed => ?_, fun g found sent => ?_, fun none => ?_⟩
    · have find : findGrant (setFifo rest s) tag = some g := found
      have same : g.tag = tag := findGrant_tag find
      intro left judged c
      have removed : removeGrant g.tag (setFifo rest s) = left := by
        rw [same]
        rfl
      have contexts : judged.contexts = s.contexts := by
        cases fail
        · rfl
        · exact (failGrant_keeps g left).2.1
      have written (d : Context) : setCtx g.context d judged = { judged with contexts := s.contexts.set g.context d } := by
        rw [← contexts]
        rfl
      have taken : takeFeedback e planIndex fail (setFifo rest s) = dropOutstanding g.context judged := by
        simp only [takeFeedback, tag, find, committed, if_true, failEntry, removed]
        cases fail <;> rfl
      rw [taken, dropOutstanding_eq, ctx_congr contexts, written, written]
      rfl
    · have find : findGrant (setFifo rest s) tag = some g := found
      simp only [takeFeedback, tag, find, sent]
      rfl
    · have find : findGrant (setFifo rest s) tag = Option.none := none
      simp only [takeFeedback, tag, find]
      rfl

end Sys2Proof.Machine
end


section
/-!
PROOFS. Configuration and the reset: CONFIG's values, echo and mask, the ranges, HARD_RESET and the laws of the state
after it (R149, R150).
-/
namespace Sys2Proof.Machine

open Sys2Proof

/-! ## The ranges -/

/-- The own station leaves the adjacency set (R120). -/
theorem getLsbD_clampAdjacency (own : Station) (b : Byte) (j : Station) :
    (clampAdjacency own b).getLsbD j.val = (b.getLsbD j.val && decide (j ≠ own)) := by
  have hj := j.isLt
  have ho := own.isLt
  have same : j.val = own.val ↔ j = own := Fin.val_inj
  simp only [clampAdjacency, BitVec.getLsbD_and, BitVec.getLsbD_not, BitVec.getLsbD_shiftLeft, BitVec.getLsbD_one]
  by_cases h : j = own
  · subst h; simp
  · have apart : j.val ≠ own.val := fun e => h (same.mp e)
    simp [h]
    omega

/-- Settles O21, quantity by quantity. -/
theorem configValuesLieInRange : Obligations.ConfigValuesLieInRange := by
  intro own b p taken
  have clamped (low high given : Nat) (h : low ≤ high) : taken low high given (clampTo low high given) := by
    simp only [taken, clampTo]
    omega
  have capped (high given : Nat) : taken 0 high given (min high given) := by
    simp only [taken]
    omega
  have overrun : p.keepPolicy = true ↔ b.overrun = 1#8 := by simp [p, clampConfig]
  refine ⟨clamped _ _ _ (by decide), capped _ _, clamped _ _ _ (by decide), capped _ _, capped _ _, capped _ _,
    clamped _ _ _ ?_, clamped _ _ _ (by decide), clamped _ _ _ (by decide), clamped _ _ _ (by decide), capped _ _,
    clamped _ _ _ (by decide), clamped _ _ _ (by decide), clamped _ _ _ (by decide), clamped _ _ _ (by decide),
    clamped _ _ _ (by decide), capped _ _, capped _ _, capped _ _, clamped _ _ _ (by decide), ?_, ?_, ?_, rfl, overrun,
    getLsbD_clampAdjacency own b.adjacency, ?_⟩
  · exact (Nat.min_le_left 4 _).trans (by decide)
  · intro off
    simp [p, clampConfig, clampAge, off]
  · intro on
    have held : p.ageLimit = clampTo 8 255 b.ageLimit.toNat := by simp [p, clampConfig, clampAge, on.ne']
    rw [held]
    exact clamped _ _ _ (by decide)
  · simp only [p, clampConfig, clampCounts]
    generalize b.counts.getLsbD 0 = x
    generalize b.counts.getLsbD 1 = y
    generalize b.counts.getLsbD 2 = z
    revert x y z
    decide
  · simp only [p, clampConfig, clampTo]
    omega

/-! ## CONFIG -/

theorem getLsbD_maskOf (l : List Bool) (h : l.length ≤ 32) (k : Nat) : (maskOf l).getLsbD k = l.getD k false := by
  induction l generalizing k with
  | nil => simp [maskOf]
  | cons b l ih =>
    have rest := ih (Nat.le_of_succ_le h)
    cases k with
    | zero => cases b <;> simp [maskOf]
    | succ k =>
      have single : (if b then 1#32 else 0#32).getLsbD (k + 1) = false := by cases b <;> simp
      simp only [maskOf, BitVec.getLsbD_or, BitVec.getLsbD_shiftLeft, single, rest, List.getD_cons_succ]
      by_cases hk : k + 1 < 32
      · simp [hk]
      · have out : l.length ≤ k := by simp only [List.length_cons] at h; omega
        simp [hk, out]

/-- A field marked as clamped is one whose value in force is another number. -/
theorem bne_ofNat {w n : Nat} (x : BitVec w) (h : n < 2 ^ w) : (x != BitVec.ofNat w n) = (x.toNat != n) := by
  have same : x = BitVec.ofNat w n ↔ x.toNat = n := by
    rw [← BitVec.toNat_inj, BitVec.toNat_ofNat, Nat.mod_eq_of_lt h]
  rw [Bool.eq_iff_iff, bne_iff_ne, bne_iff_ne, ne_eq, ne_eq, same]

/-- The fields marked in the echo, as numbers (R150). -/
theorem clampedFields_eq (own : Station) (b : ConfigBody) (e : EventUnit) :
    clampedFields b (inForce (clampConfig own b) (configEvents b e)) =
      let p := clampConfig own b
      [false, false, b.budget.toNat != p.budget, b.floorShare.toNat != p.floorShare,
        b.rampStep.toNat != p.rampStep, b.t1.toNat != p.t1, b.t2.toNat != p.t2, b.adjacency != p.adjacency,
        b.advanceLimit.toNat != p.advanceLimit, b.tailGuard.toNat != p.tailGuard,
        b.maxShadow.toNat != p.maxShadow, b.window.toNat != p.window, b.redoMax.toNat != p.redoMax,
        b.redoDistance.toNat != p.redoDistance, b.idleTimer.toNat != p.idleTimer,
        b.admitTimeout.toNat != p.admitTimeout, b.ageLimit.toNat != p.ageLimit,
        b.edgeGrade.toNat != p.edgeGrade, b.quietGrade.toNat != p.quietGrade, b.tMin.toNat != p.tMin,
        b.tMax.toNat != p.tMax, b.updateInterval.toNat != p.updateInterval, b.holdDown.toNat != p.holdDown,
        b.maxSubscribers.toNat != p.maxSubscribers, b.overrun.toNat != p.keepPolicy.toNat, false, false,
        b.threshold.toNat != (configEvents b e).threshold] := by
  have overrun : (b.overrun != if (clampConfig own b).keepPolicy then 1 else 0) =
      (b.overrun.toNat != (clampConfig own b).keepPolicy.toNat) := by
    cases (clampConfig own b).keepPolicy
    · exact bne_ofNat b.overrun (n := 0) (by decide)
    · exact bne_ofNat b.overrun (n := 1) (by decide)
  have age : (clampConfig own b).ageLimit < 2 ^ 16 := by
    simp only [clampConfig, clampAge, clampTo]
    split <;> omega
  simp only [clampedFields, inForce, overrun, lowByte, bne_ofNat b.ageLimit age]
  simp (disch := (simp only [clampConfig, configEvents, EventUnit.judged, clampTo]; omega)) only [bne_ofNat]

/-- Settles O20: the configured values and the entry to LISTENING are written out, and the mask is read bit by bit. -/
theorem configIsAcceptedOnce : Obligations.ConfigIsAcceptedOnce := by
  intro b rest s h
  rw [exec_hands rfl rfl h]
  refine ⟨fun op => ?_, fun op => ?_⟩
  · have accepted : ownerOf (.config b) (setFifo rest s) = acceptConfig b (setFifo rest s) := by
      simp [ownerOf, takeConfig, op]
    have range := configValuesLieInRange s.align.station b
    refine ⟨acceptConfig b (setFifo rest s), maskOf (clampedFields b
      (inForce (clampConfig s.align.station b) (configEvents b s.events))), by rw [accepted], rfl, rfl, rfl, rfl, rfl,
      fun k => ?_, fun k => ?_, rfl, rfl, fun j => ?_, fun j => ?_, rfl, rfl, fun k => ?_, rfl, rfl, rfl, rfl⟩
    · have hk := k.num_lt
      show (b.enables.setWidth 29).getLsbD k.num = _
      simp [hk]
    · have hk := k.num_lt
      show ((b.levels.setWidth 58).getLsbD (2 * k.num)).toNat + 2 * ((b.levels.setWidth 58).getLsbD (2 * k.num + 1)).toNat = _
      have low : 2 * k.num < 58 := by omega
      have high : 2 * k.num + 1 < 58 := by omega
      simp only [BitVec.getLsbD_setWidth, low, high, decide_true, Bool.true_and]
    · simp only [acceptConfig, writeAdjacency, reply_keeps, Table.get_mapWith, setFifo_keeps]
      rw [clampConfig, getLsbD_clampAdjacency, Bool.and_assoc, Bool.and_self]
    · simp [acceptConfig, writeAdjacency]
    · rw [getLsbD_maskOf _ (by rw [clampedFields_eq]; exact Nat.le_of_ble_eq_true rfl), clampedFields_eq]
      rfl
  · simp only [ownerOf, takeConfig, setFifo_keeps, op, if_false]

/-! ## The reset -/

/-- Settles O23, value by value. -/
theorem hardResetValues : Obligations.HardResetValues := by
  intro station s
  refine ⟨_, rfl, rfl, fun i => ?_, rfl, fun p => ?_, rfl, rfl, rfl, rfl, rfl, rfl, rfl, rfl, rfl, rfl, rfl, ?_,
    fun j => ?_, rfl, rfl, rfl, rfl, rfl, rfl, fun p rest queue => ?_, rfl, rfl, rfl, rfl, fun c => ?_, rfl, rfl, rfl⟩
  · simp [ctx, State.resetAt, Context.reset]
  · simp [State.resetAt, Tracking.reset, BatchRecord.empty]
  · have small := station.isLt
    simp only [State.resetAt, BusPort.reset, BitVec.toNat_ofNat]
    omega
  · simp [State.resetAt, PeerTable.reset, Peer.reset]
  · simp [resetOutput, queue]
  · simp [State.resetAt, EventUnit.reset]

/-- Settles O53: the state after reset is what HARD_RESET makes of itself, which every law allows. -/
theorem resetIsSafe : Obligations.ResetIsSafe := by
  refine ⟨linesFollow_law.reset 0 State.reset, storesBounded_law.reset 0 State.reset,
    countersBounded_law.reset 0 State.reset, figuresBounded_law.reset 0 State.reset,
    attachedBounded_law.reset 0 State.reset, allowanceBounded_law.reset 0 State.reset,
    plansOnlyWhenOperating_law.reset 0 State.reset, edgeOnlyWhenOperating_law.reset 0 State.reset,
    ownPeerAbsent_law.reset 0 State.reset, ringPlaced_law.reset 0 State.reset,
    snapshotDistinct_law.reset 0 State.reset, fun i => ?_, List.nodup_nil, fun r hr => ?_, List.Pairwise.nil⟩
  · simp [ctx, State.reset, State.resetAt, Context.reset, Tracking.reset]
  · simp [State.reset, State.resetAt, Engine.reset] at hr

end Sys2Proof.Machine
end


section
/-!
PROOFS. REALIGN (R25, R105, R140, R158, R164): what it empties, what it reports and what it keeps.
-/
namespace Sys2Proof.Machine

open Sys2Proof

theorem releaseDone_eq (i : Index) (s : State) : releaseDone i s = setEvent .released i.val .done (enterFree i s) := rfl

/-- Releases that are done report as their RELEASEDs do, whatever the contexts are. -/
theorem foldl_releaseDone_reports (l : List Index) {s u : State} (events : s.events = u.events) (link : s.link = u.link)
    (align : s.align = u.align) :
    (l.foldl (fun t i => releaseDone i t) s).events =
        (l.foldl (fun t i => setEvent .released i.val .done t) u).events ∧
      (l.foldl (fun t i => releaseDone i t) s).link =
        (l.foldl (fun t i => setEvent .released i.val .done t) u).link := by
  induction l generalizing s u with
  | nil => exact ⟨events, link⟩
  | cons i l ih =>
    refine ih ?_ ?_ ?_
    · simp [releaseDone_eq, events]
    · simp [releaseDone_eq, setEvent_link, events, link, align]
    · simp [align]

/-- What counting bytes as lost reads and writes. -/
theorem loseBytes_congr (n : Nat) {s u : State} (events : s.events = u.events) (link : s.link = u.link)
    (align : s.align = u.align) :
    (loseBytes n s).events = (loseBytes n u).events ∧ (loseBytes n s).link = (loseBytes n u).link := by
  simp only [loseBytes, advance_eq, events]
  split
  · exact ⟨rfl, by simp [setEvent_link, link, align]⟩
  · exact ⟨rfl, link⟩

/-- What an emptying of the tracking state reports: the bytes of the Redo List, then the RELEASEDs in ascending order
(R24, R104). -/
theorem emptyTracking_reports {s u : State} (events : s.events = u.events) (link : s.link = u.link)
    (align : s.align = u.align) :
    (emptyTracking s).events =
        (((List.finRange 256).filter fun i => decide ((ctx s i).state = .closing)).foldl
          (fun t i => setEvent .released i.val .done t)
          (loseBytes ((s.tracking.redo.map RedoEntry.bytes).sum) u)).events ∧
      (emptyTracking s).link =
        (((List.finRange 256).filter fun i => decide ((ctx s i).state = .closing)).foldl
          (fun t i => setEvent .released i.val .done t)
          (loseBytes ((s.tracking.redo.map RedoEntry.bytes).sum) u)).link := by
  have lost := loseBytes_congr ((s.tracking.redo.map RedoEntry.bytes).sum)
    (s := { s with tracking := { s.tracking with ring := Table.fill 16 BatchRecord.empty, ogt := [], redo := [] } })
    (u := u) events link align
  have closing (t : Table Context 256) :
      ((t.map fun c => { c with outstanding := 0 }).positions fun c => c.state == .closing) =
        (List.finRange 256).filter fun i => decide ((t.get i).state = .closing) := by
    rw [Table.positions_eq]
    exact List.filter_congr fun i _ => by simp [beq_eq_decide]
  unfold emptyTracking emptyOutstanding
  dsimp only
  rw [closing, (loseBytes_keeps _ _).2.1]
  exact foldl_releaseDone_reports _ lost.1 lost.2 (by simp [align])

/-- Settles O22, block by block. -/
theorem realignReturnsToListening : Obligations.RealignReturnsToListening := by
  intro rest s h op
  have accepted : ownerOf .realign (setFifo rest s) = acceptRealign (setFifo rest s) :=
    whenConfigured_configured (s := setFifo rest s) _ op
  rw [exec_hands rfl rfl h, accepted]
  generalize hu : emptyCarry (discardRun (cutPlans (setFifo rest s))) = u
  have eq : acceptRealign (setFifo rest s) =
      { emptyTracking u with
        power := Power.reset
        edge := Edge.reset
        peers := (emptyTracking u).peers.realigned
        bus := (emptyTracking u).bus.realigned
        align := (emptyTracking u).align.listeningEntry } := by
    rw [← hu]
    rfl
  have told := emptyTracking_told u
  obtain ⟨notices, queued⟩ := told.queued
  have engine : u.engine = { s.engine with run := none, carrySource := none, carryTiles := [] } := by rw [← hu]; rfl
  have align : u.align = s.align := by rw [← hu]; rfl
  have peers : u.peers = s.peers := by rw [← hu]; rfl
  have bus : u.bus = s.bus := by rw [← hu]; rfl
  have config : u.config = s.config := by rw [← hu]; rfl
  have contexts (i : Index) : ctx u i = ctx s i := by rw [← hu]; rfl
  have queue : u.link.queue = s.link.queue.filter fun r => !r.isPlan := by rw [← hu]; rfl
  have fifo : u.link.fifo = rest ∧ u.link.lost = s.link.lost := by rw [← hu]; exact ⟨rfl, rfl⟩
  refine ⟨_, rfl, ?_⟩
  rw [eq]
  refine ⟨by simp [align, Alignment.listeningEntry, Alignment.reset], by simp [engine], by simp, by simp,
    fun p => by simp [BatchRecord.empty], rfl, rfl, rfl, fun j => by simp [PeerTable.realigned, peers], fun i => ?_, ?_,
    fun p mem => ?_, ?_, ?_, ?_, by simp [config], ?_⟩
  · show ctx (emptyTracking u) i = _
    rw [ctx_emptyTracking, contexts]
    rfl
  · intro uncut cleared
    have same : u.events = cleared.events ∧ u.link = cleared.link ∧ u.align = cleared.align := by
      refine ⟨by rw [← hu]; rfl, ?_, by rw [← hu]; rfl⟩
      rw [← hu]
      cases hq : s.link.queue with
      | nil => simp [cleared, uncut, cutPlans, hq]
      | cons r _ => cases r <;> simp [cleared, uncut, cutPlans, hq, cutCheck]
    have reports := emptyTracking_reports same.1 same.2.1 same.2.2
    have redo : u.tracking.redo = s.tracking.redo := by rw [← hu]; rfl
    simp only [contexts, redo] at reports
    exact reports
  · have mem' : OutRecord.plan p ∈ (emptyTracking u).link.queue := mem
    rw [queued, queue] at mem'
    simp [OutRecord.isPlan] at mem'
  · show (emptyTracking u).link.fifo = rest
    rw [queued]
    exact fifo.1
  · show (emptyTracking u).link.lost = s.link.lost
    rw [queued]
    exact fifo.2
  · simp only [emptyTracking_keeps, bus, BusPort.realigned]
    cases s.bus.access <;> rfl
  · show (emptyTracking u).events.enables = s.events.enables
    rw [told.settings.1, ← hu]
    rfl

end Sys2Proof.Machine
end


section
/-!
PROOFS. The bytes of records and frames: what a field written most significant byte first is read as, what the
receiver makes of a whole record, and what another part reads in a frame.
-/
namespace Sys2Proof.Machine

open Sys2Proof

/-! ## Fields -/

theorem ofNat_append_ofNat (a b n : Nat) :
    (BitVec.ofNat a (n / 2 ^ b) ++ BitVec.ofNat b n : BitVec (a + b)) = BitVec.ofNat (a + b) n := by
  refine BitVec.eq_of_getLsbD_eq fun i hi => ?_
  simp only [BitVec.getLsbD_append, BitVec.getLsbD_ofNat, Nat.testBit_div_two_pow]
  by_cases h : i < b
  · simp [h, show i < a + b by omega]
  · simp [h, show i - b < a by omega, show i < a + b by omega, show i - b + b = i by omega]

theorem fieldBytes_two (n : Nat) : fieldBytes 2 n = [lowByte (n / 256), lowByte n] := rfl

theorem lowBytes_word (n : Nat) : (lowByte (n / 256) ++ lowByte n : BitVec 16) = BitVec.ofNat 16 n :=
  ofNat_append_ofNat 8 8 n

theorem lowBytes_triple (n : Nat) :
    (lowByte (n / 256 / 256) ++ (lowByte (n / 256) ++ lowByte n : BitVec 16) : BitVec 24) = BitVec.ofNat 24 n := by
  rw [lowBytes_word, Nat.div_div_eq_div_mul]
  exact ofNat_append_ofNat 8 16 n

theorem words_quad (n : Nat) : (BitVec.ofNat 16 (n / 65536) ++ BitVec.ofNat 16 n : BitVec 32) = BitVec.ofNat 32 n :=
  ofNat_append_ofNat 16 16 n

theorem quads_oct (n : Nat) :
    (BitVec.ofNat 32 (n / 4294967296) ++ BitVec.ofNat 32 n : BitVec 64) = BitVec.ofNat 64 n :=
  ofNat_append_ofNat 32 32 n

/-- The two bytes of a word at any place of a body. -/
theorem wordAt_eq {b : List Byte} {k n : Nat} (hi : byteAt b k = lowByte (n / 256)) (lo : byteAt b (k + 1) = lowByte n) :
    wordAt b k = BitVec.ofNat 16 n := by rw [wordAt, hi, lo, lowBytes_word]

theorem word_eq {b : List Byte} {k : Nat} {w : BitVec 16} (hi : byteAt b k = lowByte (w.toNat / 256))
    (lo : byteAt b (k + 1) = lowByte w.toNat) : wordAt b k = w := (wordAt_eq hi lo).trans (by simp)

theorem tripleAt_eq {b : List Byte} {k n : Nat} (hi : byteAt b k = lowByte (n / 256 / 256))
    (mid : byteAt b (k + 1) = lowByte (n / 256)) (lo : byteAt b (k + 1 + 1) = lowByte n) :
    tripleAt b k = BitVec.ofNat 24 n := by rw [tripleAt, wordAt, hi, mid, lo, lowBytes_triple]

theorem quadAt_eq {b : List Byte} {k n : Nat} (hi : wordAt b k = BitVec.ofNat 16 (n / 65536))
    (lo : wordAt b (k + 2) = BitVec.ofNat 16 n) : quadAt b k = BitVec.ofNat 32 n := by rw [quadAt, hi, lo, words_quad]

theorem octAt_eq {b : List Byte} {k n : Nat} (hi : quadAt b k = BitVec.ofNat 32 (n / 4294967296))
    (lo : quadAt b (k + 4) = BitVec.ofNat 32 n) : octAt b k = BitVec.ofNat 64 n := by rw [octAt, hi, lo, quads_oct]

theorem fieldBytes_length (k n : Nat) : (fieldBytes k n).length = k := by
  induction k generalizing n with
  | zero => rfl
  | succ k ih => simp [fieldBytes, ih]

/-- A field is its high part before its low part. -/
theorem fieldBytes_add (a b n : Nat) : fieldBytes (a + b) n = fieldBytes a (n / 256 ^ b) ++ fieldBytes b n := by
  induction b generalizing n with
  | zero => simp [fieldBytes]
  | succ b ih =>
    rw [← Nat.add_assoc, fieldBytes, fieldBytes, ih, Nat.div_div_eq_div_mul, Nat.pow_succ', List.append_assoc]

theorem fieldBytes_four_words (n : Nat) : fieldBytes 4 n = fieldBytes 2 (n / 65536) ++ fieldBytes 2 n :=
  fieldBytes_add 2 2 n

theorem fieldBytes_eight_quads (n : Nat) : fieldBytes 8 n = fieldBytes 4 (n / 4294967296) ++ fieldBytes 4 n :=
  fieldBytes_add 4 4 n

/-! ## The bodies of records -/

theorem lowByte_toNat {n : Nat} (h : n < 256) : (lowByte n).toNat = n := by
  simp [lowByte, Nat.mod_eq_of_lt h]

theorem lowByte_of_byte (b : Byte) : lowByte b.toNat = b := by simp [lowByte]

theorem indexOfByte_lowByte (i : Index) : indexOfByte (lowByte i.val) = i := by
  ext
  simp [indexOfByte, lowByte, Fin.ofNat, Nat.mod_eq_of_lt i.isLt]

theorem epochOfWord_ofNat (e : Epoch) : epochOfWord (BitVec.ofNat 16 e.val) = e := by
  have := e.isLt
  ext
  simp only [epochOfWord, Fin.ofNat, BitVec.toNat_ofNat]
  omega

theorem getLsbD_lowByte_bool (b : Bool) : (lowByte b.toNat).getLsbD 0 = b := by cases b <;> rfl

/-- A CONFIG body is read as it was laid out. -/
theorem readConfig_configBytes (c : ConfigBody) : readConfig (configBytes c) = c := by
  obtain ⟨counts, budget, floorShare, rampStep, t1, t2, adjacency, advanceLimit, tailGuard, maxShadow, window, redoMax,
    redoDistance, idleTimer, admitTimeout, ageLimit, edgeGrade, quietGrade, tMin, tMax, updateInterval, holdDown,
    maxSubscribers, overrun, enables, levels, threshold⟩ := c
  simp only [readConfig, configBytes, fieldBytes_eight_quads, fieldBytes_four_words, fieldBytes_two, List.cons_append,
    List.nil_append, ConfigBody.mk.injEq]
  refine ⟨rfl, word_eq rfl rfl, word_eq rfl rfl, word_eq rfl rfl, word_eq rfl rfl, word_eq rfl rfl, rfl, word_eq rfl rfl, rfl, rfl, rfl,
    rfl, rfl, word_eq rfl rfl, rfl, word_eq rfl rfl, rfl, rfl, rfl, rfl, rfl, word_eq rfl rfl, word_eq rfl rfl, rfl, ?_, ?_, rfl⟩
  · exact (quadAt_eq (wordAt_eq rfl rfl) (wordAt_eq rfl rfl)).trans (by simp)
  · exact (octAt_eq (quadAt_eq (wordAt_eq rfl rfl) (wordAt_eq rfl rfl))
      (quadAt_eq (wordAt_eq rfl rfl) (wordAt_eq rfl rfl))).trans (by simp)

/-- The figures of a record that fit are read from its body as they were written. -/
theorem readBody_bodyBytes {r : Record} (h : r.fits = true) : readBody (recordKind r) (bodyBytes r) = r := by
  have word {n : Nat} (hn : n < 65536) {b : List Byte} {k : Nat} (hi : byteAt b k = lowByte (n / 256))
      (lo : byteAt b (k + 1) = lowByte n) : (wordAt b k).toNat = n := by
    rw [wordAt_eq hi lo, BitVec.toNat_ofNat, Nat.mod_eq_of_lt hn]
  have triple {n : Nat} (hn : n < 2 ^ 24) {b : List Byte} {k : Nat} (hi : byteAt b k = lowByte (n / 256 / 256))
      (mid : byteAt b (k + 1) = lowByte (n / 256)) (lo : byteAt b (k + 1 + 1) = lowByte n) :
      (tripleAt b k).toNat = n := by
    rw [tripleAt_eq hi mid lo, BitVec.toNat_ofNat, Nat.mod_eq_of_lt hn]
  cases r <;> simp only [Record.fits, Bool.and_eq_true, decide_eq_true_eq] at h <;>
    simp only [recordKind, readBody, Record.attach.injEq, Record.range.injEq, Record.channel.injEq,
      Record.dlData.injEq, Record.ulBuf.injEq, Record.late.injEq, Record.feedback.injEq, Record.receipt.injEq,
      Record.floor.injEq, Record.query.injEq, Record.statusReq.injEq, Record.clear.injEq, Record.config.injEq,
      Record.release.injEq]
  case config c => exact readConfig_configBytes c
  case attach i ident cls weight rtd =>
    obtain ⟨⟨⟨hident, hcls⟩, hweight⟩, hrtd⟩ := h
    exact ⟨indexOfByte_lowByte i, triple hident rfl rfl rfl, lowByte_toNat hcls, lowByte_toNat hweight,
      word hrtd rfl rfl⟩
  case release i => exact indexOfByte_lowByte i
  case range i n => exact ⟨indexOfByte_lowByte i, word h rfl rfl⟩
  case channel i d u => exact ⟨indexOfByte_lowByte i, lowByte_toNat (by omega), lowByte_toNat (by omega)⟩
  case dlData i n => exact ⟨indexOfByte_lowByte i, triple h rfl rfl rfl⟩
  case ulBuf i n => exact ⟨indexOfByte_lowByte i, triple h rfl rfl rfl⟩
  case late i n => exact ⟨indexOfByte_lowByte i, word h rfl rfl⟩
  case feedback e p f =>
    exact ⟨(congrArg epochOfWord (wordAt_eq rfl rfl)).trans (epochOfWord_ofNat e), lowByte_toNat (by omega),
      getLsbD_lowByte_bool f⟩
  case receipt e => exact (congrArg epochOfWord (wordAt_eq rfl rfl)).trans (epochOfWord_ofNat e)
  case floor n => exact lowByte_toNat h
  case query i => exact indexOfByte_lowByte i
  case statusReq z => exact getLsbD_lowByte_bool z
  case clear m =>
    simp only [bodyBytes, fieldBytes_four_words]
    exact (quadAt_eq (wordAt_eq rfl rfl) (wordAt_eq rfl rfl)).trans (by simp)

theorem bodyBytes_length (r : Record) : (bodyBytes r).length = (recordKind r).length := by
  cases r <;> simp [bodyBytes, configBytes, fieldBytes_length, recordKind, Kind.length]

theorem ofCode_code (k : Kind) : Kind.ofCode k.code = some k := by cases k <;> decide

theorem ofCode_eq_none {c : Byte} (h : ∀ k : Kind, k.code ≠ c) : Kind.ofCode c = none := by
  simp [Kind.ofCode, List.find?_eq_none, h]

theorem outOfRange_of_fits {r : Record} (h : r.fits = true) : outOfRange r = false := by
  cases r <;> simp_all [Record.fits, outOfRange]

/-! ## A whole record -/

/-- The receiver on the bytes of a record from its kind to the end of its check word. -/
theorem receive_covered {kind : Byte} {body : List Byte} (check : BitVec 16) (h : body.length < 65536) :
    receive (coveredBytes kind body ++ fieldBytes 2 check.toNat) =
      if check ≠ checkWord (coveredBytes kind body) then .malformed (some kind) .check false
      else judgeBody kind body := by
  have length : (lowByte (body.length / 256) ++ lowByte body.length : BitVec 16).toNat = body.length := by
    rw [lowBytes_word, BitVec.toNat_ofNat, Nat.mod_eq_of_lt h]
  have word : wordAt (body ++ fieldBytes 2 check.toNat) body.length = check := by
    refine (wordAt_eq (n := check.toNat) ?_ ?_).trans (by simp) <;>
      simp [byteAt, fieldBytes_two, List.getD_eq_getElem?_getD]
  simp only [coveredBytes, fieldBytes_two body.length, List.cons_append, List.nil_append, receive, length, word,
    List.take_left', List.length_append, fieldBytes_length, Nat.lt_irrefl, if_false]
  rfl

theorem recordSpan_covered (kind : Byte) {body : List Byte} (rest : List Byte) (h : body.length < 65536) :
    recordSpan (coveredBytes kind body ++ rest) = some (body.length + 5) := by
  simp only [coveredBytes, fieldBytes_two body.length, List.cons_append, List.nil_append, recordSpan, lowBytes_word,
    BitVec.toNat_ofNat, Nat.mod_eq_of_lt h]

theorem covered_length (kind : Byte) (body : List Byte) (check : BitVec 16) :
    (coveredBytes kind body ++ fieldBytes 2 check.toNat).length = body.length + 5 := by
  simp [coveredBytes, fieldBytes_length]
  omega

/-- A record on the line after an idle byte or a check word. -/
theorem exec_recordReceived_covered {kind : Byte} {body : List Byte} (check : BitVec 16) {s : State}
    (h : body.length < 65536) (idle : s.pulse.pending = false) (line : s.link.afterIdle = true) :
    exec (.recordReceived (startByte :: (coveredBytes kind body ++ fieldBytes 2 check.toNat))) s =
      .next (takeReception (if check ≠ checkWord (coveredBytes kind body) then .malformed (some kind) .check false
        else judgeBody kind body) (lineStands true s)) := by
  have done : afterRecord (coveredBytes kind body ++ fieldBytes 2 check.toNat) = [] := by
    simp only [afterRecord, recordSpan_covered kind _ h, List.drop_eq_nil_iff, covered_length, Nat.le_refl]
  have ends : recordEnds (coveredBytes kind body ++ fieldBytes 2 check.toNat) = true := by
    simp only [recordEnds, recordSpan_covered kind _ h, covered_length, Nat.le_refl, decide_true]
  have nothing (n : Nat) (t : State) : takeLine n [] t = t := by cases n <;> rfl
  show Host.Outcome.next (takeLine (_ + 1) (startByte :: _) (finishPulse s)) = _
  rw [finishPulse_idle idle, takeLine_record _ _ line, done, ends, nothing, receive_covered check h]

/-- Settles O25: the bytes written are the record read, and the receiver finds room or not. -/
theorem recordBytesAreReceivedAsTheRecord : Obligations.RecordBytesAreReceivedAsTheRecord := by
  intro r s fits idle line
  have short : (bodyBytes r).length < 65536 := by
    rw [bodyBytes_length]
    cases recordKind r <;> decide
  have judged : judgeBody (recordKind r).code (bodyBytes r) = .wellFormed (clampRecord r) := by
    simp [judgeBody, ofCode_code, bodyBytes_length, readBody_bodyBytes fits, outOfRange_of_fits fits]
  have taken : exec (.recordReceived (recordBytes r)) s = .next (joinFifo (clampRecord r) s.arrived) := by
    rw [recordBytes, envelope, List.append_assoc, checkBytes, List.singleton_append, exec_recordReceived_covered _ short idle line, judged]
    simp [takeReception, ← recordArrived_eq, recordArrived]
  rw [taken]
  refine ⟨fun room => ?_, fun full => ?_⟩
  · rw [joinFifo_room (s := s.arrived) room]
    simp only [setFifo, readyLevel_eq, List.length_append, List.length_singleton]
    rfl
  · rw [joinFifo_overrun (s := s.arrived) full]
    simp only [kindSubject, recordKind_clamp]

/-- Settles O26, by the tests of R159 in their order. -/
theorem malformedRecordIsDiscarded : Obligations.MalformedRecordIsDiscarded := by
  intro kind body check s short idle line bytes right discarded
  have taken := exec_recordReceived_covered (kind := kind) check short idle line
  have whole : startByte :: (coveredBytes kind body ++ fieldBytes 2 check.toNat) = bytes := rfl
  rw [whole] at taken
  have judged (code : Code) (same : check = right) (j : judgeBody kind body = .malformed (some kind) code true) :
      exec (.recordReceived bytes) s = .next (discarded code s.arrived) := by
    have passes : ¬ check ≠ checkWord (coveredBytes kind body) := not_not.mpr same
    rw [taken, if_neg passes, j]
    rfl
  refine ⟨fun wrong => ?_, fun same unknown => ?_, fun k same code length => ?_, fun same range => ?_⟩
  · have fails : check ≠ checkWord (coveredBytes kind body) := wrong
    rw [taken, if_pos fails]
    rfl
  · exact judged .kind same (by simp [judgeBody, ofCode_eq_none unknown])
  · exact judged .length same (by simp [judgeBody, ← code, ofCode_code, length])
  · refine judged .range same ?_
    rcases range with ⟨rfl, length, above⟩ | ⟨rfl, length, above⟩
    · have known : Kind.ofCode 0x0A#8 = some .feedback := ofCode_code .feedback
      have out : outOfRange (readBody .feedback body) = true := by simpa [outOfRange, readBody, byteAt] using above
      simp [judgeBody, known, Kind.length, length, out]
    · have known : Kind.ofCode 0x06#8 = some .channel := ofCode_code .channel
      have out : outOfRange (readBody .channel body) = true := by simpa [outOfRange, readBody, byteAt] using above
      simp [judgeBody, known, Kind.length, length, out]

/-! ## The line between records -/

/-- A byte that is neither idle nor the start of a record is discarded. -/
theorem exec_recordReceived_discards {b : Byte} {bytes : List Byte} {s : State} (idle : s.pulse.pending = false)
    (hi : b ≠ idleByte) (hs : b ≠ startByte ∨ s.link.afterIdle = false) :
    exec (.recordReceived (b :: bytes)) s = exec (.recordReceived bytes) (lineStands false s) := by
  have stays : ¬(b = startByte ∧ s.link.afterIdle = true) := by
    rintro ⟨hb, ha⟩
    rcases hs with h | h
    · exact h hb
    · rw [ha] at h
      cases h
  show Host.Outcome.next (takeLine (bytes.length + 1) _ (finishPulse s)) =
    .next (takeLine bytes.length _ (finishPulse (lineStands false s)))
  rw [finishPulse_idle idle, finishPulse_idle (s := lineStands false s) idle, takeLine_discards _ _ hi stays]

/-- Settles O27, one rule of the link after another. -/
theorem linkEvents : Obligations.LinkEvents := by
  intro s idle
  have heard (n : Nat) : exec (.idlePatternReceived n) s = .next (hearIdle n s) := by
    show Host.Outcome.next (hearIdle n (finishPulse s)) = _
    rw [finishPulse_idle idle]
  refine ⟨fun count pos enough => ?_, fun count pos short => ?_, fun bytes => ?_, fun b bytes notIdle other => ?_,
    ⟨fun kind more => ?_, ?_⟩, fun r rest head => ⟨?_, ?_⟩, fun empty => ⟨?_, ?_⟩⟩
  · rw [heard]
    simp [hearIdle, pos, Config.idleRun, Nat.min_eq_left enough, restartLink]
  · have run : min 8 (s.link.idleRun + count) = s.link.idleRun + count := Nat.min_eq_right short.le
    rw [heard]
    simp [hearIdle, pos, run, Config.idleRun, short.ne]
  · have quiet : (hearIdle 1 s).pulse.pending = false := by simpa using idle
    rw [heard]
    show Host.Outcome.next (takeLine (bytes.length + 1) (idleByte :: bytes) (finishPulse s)) =
      .next (takeLine bytes.length bytes (finishPulse (hearIdle 1 s)))
    rw [finishPulse_idle idle, finishPulse_idle quiet, takeLine_idle]
  · exact exec_recordReceived_discards idle notIdle other
  · show Host.Outcome.next (discardReceived (some kind) .check (lineStands false (finishPulse s))) = _
    rw [finishPulse_idle idle]
    rfl
  · refine ⟨(Config.unreceivedKind s.freeValues).toNat, BitVec.isLt _, ?_⟩
    show Host.Outcome.next (discardReceived none .check (lineStands false (finishPulse s))) = _
    rw [finishPulse_idle idle]
    rfl
  · simp [LinkPort.onLine, head]
  · show Host.Outcome.next (sendHead (finishPulse s)) = _
    rw [finishPulse_idle idle, sendHead, head]
  · simp [LinkPort.onLine, empty, idleByte]
  · show Host.Outcome.next (sendHead (finishPulse s)) = _
    rw [finishPulse_idle idle, sendHead, empty]

/-! ## Frames on the site bus -/

theorem lowByte_low (n : Nat) : ((lowByte n).extractLsb' 0 2).toNat = n % 4 := by
  simp only [lowByte, BitVec.extractLsb'_toNat, BitVec.toNat_ofNat, Nat.shiftRight_zero]
  omega

theorem OpState.num_lt (op : OpState) : op.num < 4 := by cases op <;> decide

theorem stationOfByte_frameHead (station : Station) (op : OpState) : stationOfByte (frameHead station op) = station := by
  revert station
  cases op <;> decide

theorem state_frameHead (station : Station) (op : OpState) :
    ((frameHead station op).extractLsb' 0 2).toNat = op.num := by
  have := op.num_lt
  rw [frameHead, lowByte_low]
  omega

theorem frameMode_modeByte (mode : Option Mode) :
    frameMode ((lowByte (modeByte mode)).extractLsb' 0 2) ((lowByte (modeByte mode)).getLsbD 7) = mode := by
  match mode with
  | none => rfl
  | some ⟨.s12, false⟩ | some ⟨.s12, true⟩ | some ⟨.s16, false⟩ | some ⟨.s16, true⟩ | some ⟨.s24, false⟩
  | some ⟨.s24, true⟩ => rfl

theorem ability_abilityByte (a : Ability) :
    ({ counts := ⟨(lowByte (abilityByte a)).getLsbD 0, (lowByte (abilityByte a)).getLsbD 1,
        (lowByte (abilityByte a)).getLsbD 2⟩, edge := (lowByte (abilityByte a)).getLsbD 7 } : Ability) = a := by
  obtain ⟨⟨c12, c16, c24⟩, edge⟩ := a
  cases c12 <;> cases c16 <;> cases c24 <;> cases edge <;> rfl

/-- The check word of a frame is the one over the bytes before it. -/
theorem frameChecks_frameBytes {contents : List Byte} {n : Nat} (h : contents.length + 2 = n) :
    frameChecks (contents ++ checkBytes (checkWord contents)) n = true := by
  subst h
  have word : wordAt (contents ++ checkBytes (checkWord contents)) contents.length = checkWord contents := by
    refine (wordAt_eq (n := (checkWord contents).toNat) ?_ ?_).trans (by simp) <;>
      simp [byteAt, checkBytes, fieldBytes_two, List.getD_eq_getElem?_getD]
  simp [frameChecks, word]

/-- Settles O51, field by field at the offsets of R179. -/
theorem frameBytesAreReadAsTheFrame : Obligations.FrameBytesAreReadAsTheFrame := by
  refine ⟨fun epoch station op target claim reserved demand mode => ?_, fun epoch station op word => ?_⟩
  · refine ⟨readAnnounce (frameBytes epoch.toNat (.announce station op target claim.toNat reserved demand.toNat mode)),
      ?_, stationOfByte_frameHead station op, state_frameHead station op, word_eq rfl rfl, ?_, word_eq rfl rfl, ?_,
      lowByte_of_byte demand, frameMode_modeByte mode⟩
    · have checks := frameChecks_frameBytes
        (contents := frameContents epoch.toNat (.announce station op target claim.toNat reserved demand.toNat mode))
        (n := 15) rfl
      simp only [readFrame, if_neg Bool.false_ne_true]
      exact if_pos ⟨rfl, rfl, checks⟩
    · have field : (readAnnounce (frameBytes epoch.toNat
          (.announce station op target claim.toNat reserved demand.toNat mode))).target = BitVec.ofNat 16 target.val :=
        wordAt_eq rfl rfl
      have := target.isLt
      rw [field, BitVec.toNat_ofNat]
      omega
    · exact (tripleAt_eq (n := reserved.toNat) rfl rfl rfl).trans (by simp)
  · refine ⟨readAbility (frameBytes epoch.toNat (.ability station op word)), ?_, stationOfByte_frameHead station op,
      state_frameHead station op, word_eq rfl rfl, ability_abilityByte word⟩
    have checks := frameChecks_frameBytes (contents := frameContents epoch.toNat (.ability station op word)) (n := 7) rfl
    have notAnnounce : byteAt (frameBytes epoch.toNat (.ability station op word)) 0 ≠ 0x41 := by
      show (0x42#8 : Byte) ≠ 0x41
      decide
    simp only [readFrame, if_neg Bool.false_ne_true]
    rw [if_neg fun h => notAnnounce h.1]
    exact if_pos ⟨rfl, rfl, checks⟩

end Sys2Proof.Machine
end


section
/-!
PROOFS. The site bus: access to the line, the outcomes of an attempt, the cut-off, and the frames heard.
-/
namespace Sys2Proof.Machine

open Sys2Proof

/-! ## The deferral generator -/

theorem generatorStep_low (r : BitVec 16) {k : Nat} (h : k < 15) :
    (generatorStep r).getLsbD k = r.getLsbD (k + 1) := by
  have low : ∀ j < 15, (0x8000#16).getLsbD j = false := by decide
  unfold generatorStep
  split <;> simp [BitVec.getLsbD_or, low k h, Nat.add_comm]

theorem generatorStep_top (r : BitVec 16) :
    (generatorStep r).getLsbD 15 = (r.getLsbD 0 ^^ r.getLsbD 2 ^^ r.getLsbD 3 ^^ r.getLsbD 5) := by
  have top : (0x8000#16).getLsbD 15 = true := by decide
  have out : (r >>> 1).getLsbD 15 = false := by
    rw [BitVec.getLsbD_ushiftRight]
    exact BitVec.getLsbD_of_ge r 16 (Nat.le_refl _)
  unfold generatorStep
  rw [BitVec.getLsbD_or, out, Bool.false_or]
  generalize r.getLsbD 0 = a, r.getLsbD 2 = b, r.getLsbD 3 = c, r.getLsbD 5 = d
  cases a <;> cases b <;> cases c <;> cases d <;> rfl

/-! ## Access to the line -/

theorem seesLine_iff (s : State) :
    seesLine s = true ↔ s.align.opState ≠ .unconfigured ∧ s.bus.access ≠ .sending := by
  simp [seesLine]

theorem exec_busIdleDetected {s : State} (idle : s.pulse.pending = false) :
    exec .busIdleDetected s = .next (idleDetected s) := by
  show Host.Outcome.next (idleDetected (finishPulse s)) = _
  rw [finishPulse_idle idle]

/-- Settles O47, by the access state. -/
theorem busAccess : Obligations.BusAccess := by
  refine ⟨fun s idle op => ⟨fun waits => ?_, fun other => ?_, fun defers => ⟨?_, fun elapsed short => ?_⟩⟩,
    fun r => ⟨fun k hk => generatorStep_low r hk, generatorStep_top r, ?_, ?_⟩⟩
  · have sees : seesLine s = true := (seesLine_iff s).mpr ⟨op, by simp [waits]⟩
    rw [exec_busIdleDetected idle]
    by_cases kept : s.bus.keepsUnits = true
    · by_cases none : s.bus.units = 0 <;>
        simp [idleDetected, sees, waits, lineSeenIdle, BusPort.idleLine, BusPort.defers, BusPort.begins, kept, none]
    · by_cases none : (drawBits (drawSteps s.bus.attempt) s.bus.generator 0).2 = 0 <;>
        simp [idleDetected, sees, waits, lineSeenIdle, BusPort.idleLine, BusPort.defers, BusPort.begins, kept, none,
          ← drawSteps.eq_1]
  · have notWaiting : s.bus.access ≠ .waiting := by rcases other with h | h <;> simp [h]
    have sees : seesLine s = true := (seesLine_iff s).mpr ⟨op, by rcases other with h | h <;> simp [h]⟩
    rw [exec_busIdleDetected idle]
    simp [idleDetected, sees, notWaiting, lineSeenIdle]
  · show Host.Outcome.next (deferralEnds (finishPulse s)) = _
    simp [finishPulse_idle idle, deferralEnds, defers, BusPort.begins]
  · show Host.Outcome.next (deferralBreaks elapsed (finishPulse s)) = _
    simp [finishPulse_idle idle, deferralBreaks, defers, short]
  · simp only [drawBits, Prod.mk.injEq, true_and]
    omega
  · simp only [drawBits, Prod.mk.injEq, true_and]
    omega

/-! ## The outcomes of an attempt -/

/-- Settles O48, by the frame behind the attempt and the attempt's number. -/
theorem busAttemptOutcomes : Obligations.BusAttemptOutcomes := by
  intro s idle sending next stopped
  have after (b : BusPort) (newer : b.newer = s.bus.newer) : b.afterAttempt = next b := by
    unfold BusPort.afterAttempt
    rw [newer]
    cases h : s.bus.newer <;> simp only [next, h] <;> rfl
  have counted : (advance .collisions 1 (transmitterStops s)) = { advance .collisions 1 s with bus := stopped } := by
    rw [advance_eq, advance_eq]
    have events : (transmitterStops s).events = s.events := rfl
    rw [events]
    split <;> rfl
  have collided : exec .collision s = .next (collide s) := by
    show Host.Outcome.next (collide (finishPulse s)) = _
    rw [finishPulse_idle idle]
  refine ⟨fun f due => ?_, fun ends => ?_, fun noNewer retries low => ?_, fun noNewer retries high => ?_⟩
  · show Host.Outcome.next (frameGone (finishPulse s)) = _
    simp [finishPulse_idle idle, frameGone, sending, due, after]
  · have stops : (s.bus.newer.isSome || s.bus.noRetry) = true := by simpa using ends
    have kept : stopped.afterAttempt = next stopped := after stopped rfl
    rw [collided]
    simp only [collide, sending, counted, stops, beq_self_eq_true, if_true, kept]
  · rw [collided]
    simp only [collide, sending, counted, noNewer, retries, low, beq_self_eq_true, if_true, Option.isSome_none,
      Bool.or_self, Bool.false_eq_true, if_false]
  · have kept : stopped.idle = next stopped := by
      simp only [next, noNewer]
      rfl
    rw [collided]
    simp only [collide, sending, counted, noNewer, retries, Nat.not_lt.mpr high, beq_self_eq_true, if_true,
      Option.isSome_none, Bool.or_self, Bool.false_eq_true, if_false, kept]

/-! ## The cut-off -/

/-- Settles O49: the cut-off discards the due frame, and afterwards every frame that becomes due. -/
theorem jabberCutsTheTransmitterOff : Obligations.JabberCutsTheTransmitterOff := by
  intro s idle
  have jabbered : exec .busJabber s = .next (cutOff s) := by
    show Host.Outcome.next (cutOff (finishPulse s)) = _
    rw [finishPulse_idle idle]
  refine ⟨fun already => ⟨by rw [jabbered, cutOff, if_pos already], fun f => by rw [frameDue, if_pos already]⟩,
    fun first => ⟨cutOff s, jabbered, ?_⟩⟩
  have taken : cutOff s =
      { (if s.bus.due.isSome then advance .unsentFrames 1 (setEvent .busJabber s.align.station.val .none s)
          else setEvent .busJabber s.align.station.val .none s) with
        bus := { s.bus.idle with cutOff := true, midFrame := decide (s.align.opState ≠ .unconfigured) } } := by
    have mid : (s.align.opState != .unconfigured) = decide (s.align.opState ≠ .unconfigured) := by
      simp [bne, beq_eq_decide]
    by_cases due : s.bus.due.isSome = true <;> simp [cutOff, first, due, mid]
  rw [taken]
  refine ⟨rfl, rfl, rfl, rfl, ?_, ?_, ⟨rfl, rfl⟩, rfl, ?_⟩
  · by_cases due : s.bus.due.isSome = true <;> simp [due, flag_advance]
  · have flagged : (setEvent .busJabber s.align.station.val .none s).events.counter .unsentFrames =
        s.events.counter .unsentFrames := rfl
    by_cases due : s.bus.due.isSome = true
    · simp only [if_pos due, counter_advance, flagged]
      rfl
    · simp only [if_neg due, flagged]
  · by_cases due : s.bus.due.isSome = true
    · simp only [if_pos due]
      rw [((setEvent_reports _ _ _ s).trans (advance_reports .unsentFrames 1 _)).frame]
    · simp only [if_neg due]
      rw [(setEvent_reports _ _ _ s).frame]

/-! ## Passages to STALE and ABSENT -/

theorem Peer.staleDue_iff (p : Peer) : p.staleDue = true ↔ p.state = .present ∧ 4 ≤ p.silence := by
  simp only [Peer.staleDue, Bool.and_eq_true, beq_iff_eq, decide_eq_true_eq]
  rfl

theorem Peer.absentDue_iff (p : Peer) : p.absentDue = true ↔ p.state ≠ .absent ∧ 64 ≤ p.silence := by
  simp only [Peer.absentDue, Bool.and_eq_true, bne_iff_ne, decide_eq_true_eq]
  rfl

theorem stalePeer_eq (j : Station) (s : State) :
    stalePeer j s =
      if (s.peers.records.get j).state = .present ∧ 4 ≤ (s.peers.records.get j).silence then
        setPeer j { s.peers.records.get j with state := .stale } s
      else s := by
  simp only [stalePeer, Peer.staleDue_iff]

theorem absentPeer_eq (j : Station) (s : State) :
    absentPeer j s =
      if (s.peers.records.get j).state ≠ .absent ∧ 64 ≤ (s.peers.records.get j).silence then
        setEvent .peerAbsent j.val .none
          { s with peers := { records := s.peers.records.set j (s.peers.records.get j).emptied, settle := 0 } }
      else s := by
  simp only [absentPeer, Peer.absentDue_iff]
  rfl

/-! ## Frames heard -/

theorem flag_setEvent (k : EventKind) (n : Nat) (c : Code) (s : State) (j : EventKind) :
    (setEvent k n c s).events.flag j = (s.events.flag j || decide (j = k)) := flag_raise s.events k j

/-- What a frame taken into a record writes: the record, the settle count and the flags that pass. -/
theorem takeFrame_effect (j : Station) (changed : Bool) (p : Peer) (s : State) :
    (takeFrame j changed p s).peers =
      { records := s.peers.records.set j p, settle := if changed then 0 else s.peers.settle } ∧
    (∀ k, (takeFrame j changed p s).events.flag k =
      (s.events.flag k ||
        (decide (k = .peerMisaligned) && p.misaligned && !(s.peers.records.get j).misaligned) ||
        (decide (k = .peerIncompatible) && p.incompatible && !(s.peers.records.get j).incompatible))) ∧
    (takeFrame j changed p s).events.counters = s.events.counters ∧
    takeFrame j changed p s =
      { s with
        peers := (takeFrame j changed p s).peers
        events := (takeFrame j changed p s).events
        link := (takeFrame j changed p s).link } := by
  have flags (k : EventKind) : (unsettle changed (writeHeard j p s)).events.flag k =
      (s.events.flag k ||
        (decide (k = .peerMisaligned) && p.misaligned && !(s.peers.records.get j).misaligned) ||
        (decide (k = .peerIncompatible) && p.incompatible && !(s.peers.records.get j).incompatible)) := by
    have settled (t : State) : (unsettle changed t).events = t.events := by cases changed <;> rfl
    rw [settled, writeHeard, writePeer]
    generalize p.misaligned = m, (s.peers.records.get j).misaligned = m', p.incompatible = i,
      (s.peers.records.get j).incompatible = i'
    cases m <;> cases m' <;> cases i <;> cases i' <;> simp [Bool.or_right_comm, Bool.or_assoc]
  refine ⟨?_, flags, ?_, ?_⟩ <;> unfold takeFrame unsettle writeHeard writePeer <;> dsimp only <;>
    (repeat' split) <;> rfl

/-- A record that no passage to ABSENT awaits meets the frame with its figures, ABSENT or not as before. -/
theorem passDue_kept {j : Station} {s : State}
    (h : ¬(s.pulse.pending = true ∧ (s.peers.records.get j).state ≠ .absent ∧
      64 ≤ (s.peers.records.get j).silence)) :
    ∃ t : PeerTable, passDue j s = { s with peers := t } ∧ t.settle = s.peers.settle ∧
      (∀ i, i ≠ j → t.records.get i = s.peers.records.get i) ∧
      ∃ st, t.records.get j = { s.peers.records.get j with state := st } ∧
        (st = .absent ↔ (s.peers.records.get j).state = .absent) := by
  unfold passDue
  split
  case isFalse => exact ⟨s.peers, rfl, rfl, fun _ _ => rfl, _, rfl, Iff.rfl⟩
  case isTrue pending =>
    have early : ¬((s.peers.records.get j).state ≠ .absent ∧ 64 ≤ (s.peers.records.get j).silence) :=
      fun due => h ⟨pending, due⟩
    by_cases stale : (s.peers.records.get j).state = .present ∧ 4 ≤ (s.peers.records.get j).silence
    · refine ⟨(setPeer j { s.peers.records.get j with state := .stale } s).peers, ?_, rfl, fun i other => ?_, .stale,
        Table.get_set_self _ _ _, by simp [stale.1]⟩
      · rw [stalePeer_eq, if_pos stale, absentPeer_eq, if_neg]
        · rfl
        · rintro ⟨-, long⟩
          simp only [setPeer, Table.get_set_self] at long
          exact early ⟨by simp [stale.1], long⟩
      · exact Table.get_set_ne _ _ other
    · exact ⟨s.peers, by rw [stalePeer_eq, if_neg stale, absentPeer_eq, if_neg early], rfl, fun _ _ => rfl, _, rfl,
        Iff.rfl⟩

/-- A passage to ABSENT that awaits is done before the frame. -/
theorem passDue_absents {j : Station} {s : State} (pending : s.pulse.pending = true)
    (present : (s.peers.records.get j).state ≠ .absent) (long : 64 ≤ (s.peers.records.get j).silence) :
    (passDue j s).events.flag .peerAbsent = true ∧
      (passDue j s).peers.records.get j = (s.peers.records.get j).emptied := by
  rw [passDue, if_pos pending, stalePeer_eq]
  split
  · rw [absentPeer_eq, if_pos]
    · simp [setPeer, Peer.emptied]
    · simp only [setPeer, Table.get_set_self]
      exact ⟨by decide, long⟩
  · rw [absentPeer_eq, if_pos ⟨present, long⟩]
    simp

theorem misalignedAfter_frameEpoch (own : Option Epoch) (w : BitVec 16) (before : Bool) :
    misalignedAfter own (frameEpoch w) before =
      match own with
      | some e => if w = 65535#16 then before else decide (e.val ≠ w.toNat % 1024)
      | none => before := by
  have unaligned : w = 65535#16 ↔ w.toNat = Config.absentField := by
    constructor
    · rintro rfl
      rfl
    · exact fun h => BitVec.eq_of_toNat_eq h
  cases own with
  | none => rfl
  | some e =>
    by_cases h : w.toNat = Config.absentField
    · simp only [frameEpoch, if_pos h, if_pos (unaligned.mpr h), misalignedAfter]
    · have number : (e != epochOfWord w) = decide (e.val ≠ w.toNat % 1024) := by
        simp [bne, beq_eq_decide, epochOfWord, Fin.ext_iff]
      simp [frameEpoch, unaligned, h, misalignedAfter, number]

theorem exec_announceReceived (f : AnnounceFrame) (across : Bool) (s : State) :
    exec (.announceReceived f across) s = .next (whenHearing (hearAnnounce f across) s) := rfl

theorem exec_abilityReceived (f : AbilityFrame) (across : Bool) (s : State) :
    exec (.abilityReceived f across) s = .next (whenHearing (hearAbility f across) s) := rfl

theorem exec_busCrc (bytes : List Byte) (partialByte : Bool) (s : State) :
    exec (.busCrc bytes partialByte) s = .next (whenHearing (hearBytes bytes partialByte) s) := rfl

/-- A frame of another station that no passage precedes: what it writes, read against the state before it. -/
theorem takeFrame_passDue {j : Station} {s : State} (changed : Bool) (p : Peer)
    (h : ¬(s.pulse.pending = true ∧ (s.peers.records.get j).state ≠ .absent ∧
      64 ≤ (s.peers.records.get j).silence)) :
    (takeFrame j changed p (passDue j s)).peers.records.get j = p ∧
    (∀ i, i ≠ j → (takeFrame j changed p (passDue j s)).peers.records.get i = s.peers.records.get i) ∧
    (takeFrame j changed p (passDue j s)).peers.settle = (if changed then 0 else s.peers.settle) ∧
    (∀ k, (takeFrame j changed p (passDue j s)).events.flag k =
      (s.events.flag k ||
        (decide (k = .peerMisaligned) && p.misaligned && !(s.peers.records.get j).misaligned) ||
        (decide (k = .peerIncompatible) && p.incompatible && !(s.peers.records.get j).incompatible))) ∧
    takeFrame j changed p (passDue j s) =
      { s with
        peers := (takeFrame j changed p (passDue j s)).peers
        events := (takeFrame j changed p (passDue j s)).events
        link := (takeFrame j changed p (passDue j s)).link } ∧
    (takeFrame j changed p (passDue j s)).events.counters = s.events.counters := by
  obtain ⟨t, passed, settle, others, st, record, -⟩ := passDue_kept h
  obtain ⟨peers, flags, counters, frame⟩ := takeFrame_effect j changed p (passDue j s)
  have at_j : (passDue j s).peers = t := by rw [passed]
  have events : (passDue j s).events = s.events := by rw [passed]
  refine ⟨by rw [peers, Table.get_set_self], fun i other => ?_, by rw [peers, at_j, settle], fun k => ?_, ?_,
    by rw [counters, events]⟩
  · rw [peers, at_j, Table.get_set_ne _ _ other, others i other]
  · rw [flags, at_j, record, events]
    rfl
  · exact frame.trans (by rw [passed])

/-- A frame of another station that meets a passage to ABSENT still due. -/
theorem takeFrame_absents {j : Station} {s : State} (p : Peer) (pending : s.pulse.pending = true)
    (present : (s.peers.records.get j).state ≠ .absent) (long : 64 ≤ (s.peers.records.get j).silence) :
    (takeFrame j true p (passDue j s)).events.flag .peerAbsent = true ∧
      (takeFrame j true p (passDue j s)).peers.settle = 0 ∧
      (takeFrame j true p (passDue j s)).peers.records.get j = p := by
  obtain ⟨peers, flags, -, -⟩ := takeFrame_effect j true p (passDue j s)
  refine ⟨by simp [flags, (passDue_absents pending present long).1], by rw [peers]; rfl, by rw [peers, Table.get_set_self]⟩

/-- Settles O50, by what the part hears: nothing, a remainder, or a frame, and by whose frame it is. -/
theorem framesHeard : Obligations.FramesHeard := by
  intro s hears seen wrong passes absented
  have sees : seesLine s = true ↔ hears := seesLine_iff s
  refine ⟨fun deaf => ?_, fun hear mid => ?_, fun hear whole => ?_⟩
  · have blind : seesLine s = false := Bool.eq_false_of_not_eq_true fun h => deaf (sees.mp h)
    refine ⟨fun idle => ?_, fun f across => ?_, fun f across => ?_, fun bytes partialByte => ?_⟩
    · rw [exec_busIdleDetected idle, idleDetected, if_neg (by simp [blind])]
    · rw [exec_announceReceived, whenHearing_deaf _ blind]
    · rw [exec_abilityReceived, whenHearing_deaf _ blind]
    · rw [exec_busCrc, whenHearing_deaf _ blind]
  · have sight := sees.mpr hear
    refine ⟨fun f across => ?_, fun f across => ?_, fun bytes partialByte => ?_⟩
    · rw [exec_announceReceived, whenHearing_remainder _ sight mid]
      rfl
    · rw [exec_abilityReceived, whenHearing_remainder _ sight mid]
      rfl
    · rw [exec_busCrc, whenHearing_remainder _ sight mid]
      rfl
  have sight := sees.mpr hear
  have announced (f : AnnounceFrame) (across : Bool) :
      exec (.announceReceived f across) s = .next (hearAnnounce f across seen) := by
    rw [exec_announceReceived, whenHearing_hears _ sight whole]
    rfl
  have abled (f : AbilityFrame) (across : Bool) :
      exec (.abilityReceived f across) s = .next (hearAbility f across seen) := by
    rw [exec_abilityReceived, whenHearing_hears _ sight whole]
    rfl
  refine ⟨fun f across own => ?_, fun f across own => ?_, fun bytes partialByte bad => ?_,
    fun f across other early => ?_, fun f across other early => ?_, fun f across other late => ?_,
    fun f across other late => ?_⟩
  · rw [announced, hearAnnounce, if_pos own]
    rfl
  · rw [abled, hearAbility, if_pos own]
    rfl
  · rw [exec_busCrc, whenHearing_hears _ sight whole]
    simp only [hearBytes, bad]
    rfl
  · intro p misaligned mismatch
    obtain ⟨t, passed, settle, others, st, record, absent⟩ := passDue_kept (s := seen) early
    have heard : announcedPeer f across (passDue f.station seen) =
        { p with
          state := .present, silence := 0, claim := min 4095 f.claim.toNat, reserved := f.reserved,
          demand := min 192 f.demand.toNat, misaligned := misaligned, mismatch := mismatch } := by
      have judged : mismatchAfter seen (frameMode f.modeCode f.modeEdge) p.mismatch = mismatch := by
        simp [mismatchAfter, tracks, mismatch, seen, bne, beq_eq_decide]
      simp only [announcedPeer, passed, record, misalignedAfter_frameEpoch]
      rw [← judged]
      rfl
    have effect := takeFrame_passDue (s := seen)
      (((passDue f.station seen).peers.records.get f.station).state == .absent)
      (announcedPeer f across (passDue f.station seen)) early
    rw [heard] at effect
    obtain ⟨written, kept, settled, flags, frame, counters⟩ := effect
    refine ⟨_, (announced f across).trans ?_, written, kept, ?_, fun k => ?_, frame, counters⟩
    · rw [hearAnnounce, if_neg other, ← heard]
    · rw [settled]
      simp only [passed, record, beq_iff_eq, absent]
      rfl
    · have opens : (p.excluded || mismatch) = true ∧ (p.excluded || p.mismatch) = false ↔
          mismatch = true ∧ p.mismatch = false ∧ p.excluded = false := by
        cases p.excluded <;> cases mismatch <;> cases p.mismatch <;> decide
      rw [flags, Bool.eq_iff_iff]
      simp only [Peer.incompatible, Bool.or_eq_true, Bool.and_eq_true, Bool.not_eq_true', and_assoc] at opens ⊢
      rw [show ((p.excluded = true ∨ mismatch = true) ∧ (p.excluded || p.mismatch) = false ↔
        mismatch = true ∧ p.mismatch = false ∧ p.excluded = false) from opens]
  · intro p word misaligned
    obtain ⟨t, passed, settle, others, st, record, absent⟩ := passDue_kept (s := seen) early
    have heard : abilityPeer f across (passDue f.station seen) =
        { p with state := .present, silence := 0, ability := some word, misaligned := misaligned } := by
      simp only [abilityPeer, passed, record, misalignedAfter_frameEpoch]
      rfl
    have effect := takeFrame_passDue (s := seen)
      (((passDue f.station seen).peers.records.get f.station).state == .absent ||
        ((passDue f.station seen).peers.records.get f.station).ability != some (abilityWord f))
      (abilityPeer f across (passDue f.station seen)) early
    rw [heard] at effect
    obtain ⟨written, kept, settled, flags, frame, counters⟩ := effect
    refine ⟨_, (abled f across).trans ?_, written, kept, ?_, fun k => ?_, frame, counters⟩
    · rw [hearAbility, if_neg other, ← heard]
    · rw [settled]
      simp only [passed, record, Bool.or_eq_true, beq_iff_eq, bne_iff_ne, absent]
      rfl
    · have stays : (({ p with state := .present, silence := 0, ability := some word, misaligned := misaligned } :
          Peer).incompatible && !p.incompatible) = false := by
        show (p.incompatible && !p.incompatible) = false
        cases p.incompatible <;> rfl
      rw [flags, Bool.and_assoc (decide (k = .peerIncompatible))]
      refine (congrArg (_ || decide (k = .peerIncompatible) && ·) stays).trans ?_
      rw [Bool.and_false, Bool.or_false]
  · obtain ⟨pending, present, long⟩ := late
    have record := (passDue_absents (s := seen) pending present long).2
    obtain ⟨told, settled, written⟩ := takeFrame_absents (s := seen)
      (announcedPeer f across (passDue f.station seen)) pending present long
    have taken : hearAnnounce f across seen =
        takeFrame f.station true (announcedPeer f across (passDue f.station seen)) (passDue f.station seen) := by
      rw [hearAnnounce, if_neg other]
      simp only [record]
      rfl
    refine ⟨_, (announced f across).trans (congrArg _ taken), ⟨told, settled, ?_, ?_⟩, ?_, ?_⟩ <;>
      rw [written] <;> simp only [announcedPeer, record] <;> rfl
  · obtain ⟨pending, present, long⟩ := late
    have record := (passDue_absents (s := seen) pending present long).2
    obtain ⟨told, settled, written⟩ := takeFrame_absents (s := seen)
      (abilityPeer f across (passDue f.station seen)) pending present long
    have taken : hearAbility f across seen =
        takeFrame f.station true (abilityPeer f across (passDue f.station seen)) (passDue f.station seen) := by
      rw [hearAbility, if_neg other]
      simp only [record]
      rfl
    refine ⟨_, (abled f across).trans (congrArg _ taken), ⟨told, settled, ?_, ?_⟩, ?_, ?_⟩ <;>
      rw [written] <;> simp only [abilityPeer, record] <;> rfl

end Sys2Proof.Machine
end


section
/-!
PROOFS. What the counts of a pulse bring about, and the finish of a pulse's work by a later command.
-/
namespace Sys2Proof.Machine

open Sys2Proof

/-! ## Counts at their limits -/

theorem timeoutDue_iff (s : State) (c : Context) :
    timeoutDue s c = true ↔ c.state = .admitting ∧ s.config.admitTimeout ≤ c.admitCount := by
  simp only [timeoutDue, Bool.and_eq_true, beq_iff_eq, decide_eq_true_eq]

theorem dormancyDue_iff (s : State) (c : Context) :
    dormancyDue s c = true ↔ c.state = .active ∧ s.config.idleTimer ≤ c.idleCount := by
  simp only [dormancyDue, Bool.and_eq_true, beq_iff_eq, decide_eq_true_eq]

/-- Settles O37: each command takes its row's operation, which tests the count. -/
theorem countsReachTheirLimits : Obligations.CountsReachTheirLimits := by
  refine ⟨fun i s => ⟨?_, ?_⟩, fun j s => ⟨?_, ?_⟩⟩
  · show Host.Outcome.next (timeoutContext i s) = _
    simp only [timeoutContext, timeoutDue_iff]
    rfl
  · show Host.Outcome.next (dormantContext i s) = _
    simp only [dormantContext, dormancyDue_iff]
    rfl
  · show Host.Outcome.next (stalePeer j s) = _
    rw [stalePeer_eq]
    rfl
  · show Host.Outcome.next (absentPeer j s) = _
    rw [absentPeer_eq]
    rfl

/-! ## The finish of a pulse's work -/

/-- A fold over a list that names everything due leaves nothing due, when each step settles its own and makes no other
due. -/
theorem not_due_foldl {ι : Type} {due : State → ι → Prop} {op : State → ι → State}
    (own : ∀ s i, ¬due (op s i) i) (other : ∀ s i j, ¬due s j → ¬due (op s i) j) (l : List ι) {s : State} {j : ι}
    (h : due s j → j ∈ l) : ¬due (l.foldl op s) j := by
  induction l generalizing s with
  | nil => exact fun d => List.not_mem_nil (h d)
  | cons i l ih =>
    refine ih fun d => ?_
    by_cases same : j = i
    · subst same
      exact absurd d (own s j)
    · have before : due s j := by
        by_contra no
        exact other s i j no d
      exact (List.mem_cons.mp (h before)).resolve_left same

theorem takeTimeouts_done (s : State) (i : Index) :
    ¬timeoutDue (takeTimeouts s) (ctx (takeTimeouts s) i) = true := by
  refine not_due_foldl (due := fun t i => timeoutDue t (ctx t i) = true) (op := fun t i => timeoutContext i t)
    (fun t i => ?_) (fun t i j no => ?_) _ fun due => (Table.mem_positions _ _ i).mpr due
  · by_cases due : timeoutDue t (ctx t i) = true
    · simp [timeoutContext, due, timeoutDue_iff, enterFree, Context.freed, Context.reset]
    · simp [timeoutContext, due]
  · by_cases due : timeoutDue t (ctx t i) = true
    · by_cases same : j = i
      · exact absurd (same ▸ due) no
      · simpa [timeoutContext, due, timeoutDue_iff, enterFree, ctx_setCtx, same] using no
    · simpa [timeoutContext, due] using no

theorem takeDormancy_done (s : State) (i : Index) :
    ¬dormancyDue (takeDormancy s) (ctx (takeDormancy s) i) = true := by
  refine not_due_foldl (due := fun t i => dormancyDue t (ctx t i) = true) (op := fun t i => dormantContext i t)
    (fun t i => ?_) (fun t i j no => ?_) _ fun due => (Table.mem_positions _ _ i).mpr due
  · by_cases due : dormancyDue t (ctx t i) = true
    · simp [dormantContext, due, dormancyDue_iff]
    · simp [dormantContext, due]
  · by_cases due : dormancyDue t (ctx t i) = true
    · by_cases same : j = i
      · exact absurd (same ▸ due) no
      · simpa [dormantContext, due, dormancyDue_iff, ctx_setCtx, same] using no
    · simpa [dormantContext, due] using no

/-- A passage to DORMANT makes no admission timeout due. -/
theorem takeDormancy_noTimeout {s : State} {i : Index} (h : ¬timeoutDue s (ctx s i) = true) :
    ¬timeoutDue (takeDormancy s) (ctx (takeDormancy s) i) = true := by
  refine List.foldlRecOn (motive := fun t => ¬timeoutDue t (ctx t i) = true) _ (fun t i => dormantContext i t) h
    fun t no k _ => ?_
  by_cases due : dormancyDue t (ctx t k) = true
  · by_cases same : i = k
    · simp [dormantContext, due, timeoutDue_iff, same]
    · simpa [dormantContext, due, timeoutDue_iff, ctx_setCtx, same] using no
  · simpa [dormantContext, due] using no

theorem takeStale_done (s : State) (j : Station) : ¬((takeStale s).peers.records.get j).staleDue = true := by
  refine not_due_foldl (due := fun t j => (t.peers.records.get j).staleDue = true) (op := fun t j => stalePeer j t)
    (fun t i => ?_) (fun t i j no => ?_) _ fun due => (Table.mem_positions _ _ j).mpr due
  · rw [stalePeer_eq]
    split
    · simp [Peer.staleDue_iff, setPeer]
    · next early => rwa [Peer.staleDue_iff]
  · rw [stalePeer_eq]
    split
    · next due =>
      have other : j ≠ i := fun same => no ((Peer.staleDue_iff _).mpr (same ▸ due))
      rwa [setPeer, Table.get_set_ne _ _ other]
    · exact no

/-- What a passage to ABSENT leaves in a record: the empty values, or the record as it was. -/
theorem absentPeer_record (i j : Station) (s : State) :
    (absentPeer i s).peers.records.get j =
      if j = i ∧ (s.peers.records.get i).absentDue = true then (s.peers.records.get i).emptied
      else s.peers.records.get j := by
  rw [absentPeer_eq]
  split
  · next due =>
    by_cases same : j = i
    · simp [same, (Peer.absentDue_iff _).mpr due]
    · simp [same, Table.get_set_ne _ _ same]
  · next early => simp [Peer.absentDue_iff, early]

theorem Peer.emptied_not_due (p : Peer) : ¬p.emptied.absentDue = true ∧ ¬p.emptied.staleDue = true := by
  simp [Peer.absentDue_iff, Peer.staleDue_iff, Peer.emptied, Peer.reset]

theorem takeAbsent_done (s : State) (j : Station) : ¬((takeAbsent s).peers.records.get j).absentDue = true := by
  refine not_due_foldl (due := fun t j => (t.peers.records.get j).absentDue = true) (op := fun t j => absentPeer j t)
    (fun t i => ?_) (fun t i j no => ?_) _ fun due => (Table.mem_positions _ _ j).mpr due
  · rw [absentPeer_record]
    split
    · exact (Peer.emptied_not_due _).1
    · next early => exact fun due => early ⟨rfl, due⟩
  · rw [absentPeer_record]
    split
    · exact (Peer.emptied_not_due _).1
    · exact no

/-- A passage to ABSENT makes no passage to STALE due. -/
theorem takeAbsent_noStale {s : State} {j : Station} (h : ¬(s.peers.records.get j).staleDue = true) :
    ¬((takeAbsent s).peers.records.get j).staleDue = true := by
  refine List.foldlRecOn (motive := fun t => ¬(t.peers.records.get j).staleDue = true) _
    (fun t j => absentPeer j t) h fun t no i _ => ?_
  rw [absentPeer_record]
  split
  · exact (Peer.emptied_not_due _).2
  · exact no

/-- A later command hands over on the finished state. -/
theorem handOver_finishPulse (r : Record) (owner : State → State) (s : State) :
    handOver r owner (finishPulse s) = handOver r owner s := by
  unfold handOver
  rw [finishPulse_twice]

/-- A command outside a pulse's work runs on the finished state. -/
theorem exec_finishPulse {c : Instr} (h : c.insidePulse = false) (s : State) : exec c s = exec c (finishPulse s) := by
  cases hr : c.record? with
  | some r => rw [exec_record hr, exec_record hr, handOver_finishPulse]
  | none =>
    cases c with
    | config | realign | attach | release | dlData | ulBuf | channel | range | late | feedback | receipt | floor | query
    | statusReq | clear => cases hr
    | hardReset | batchVoid | grantExpiry | redoDrop | attachTimeout | goDormant | updateEvent | holdDownExpiry
    | peerStale | peerAbsent | announceReceived | abilityReceived | busCrc => cases h
    | recordReceived | idlePatternReceived | linkLoss | recordSent | framingLost =>
      simp only [exec, execRecordReceived, execIdlePatternReceived, execLinkLoss, execRecordSent, execFramingLost,
        finishPulse_twice]
    | epochPulse | epochLoss | markPulse | runCompletion =>
      simp only [exec, execEpochPulse, execEpochLoss, execMarkPulse, execRunCompletion, finishPulse_twice]
    | busIdleDetected | deferralExpired | deferralInterrupted | frameSent | collision | busJabber =>
      simp only [exec, execBusIdleDetected, execDeferralExpired, execDeferralInterrupted, execFrameSent, execCollision,
        execBusJabber, finishPulse_twice]

/-- What a frame on the line leaves as it was. -/
theorem whenHearing_pulse {hear : State → State} (h : ∀ t, (hear t).pulse = t.pulse) (s : State) :
    (whenHearing hear s).pulse = s.pulse := by
  unfold whenHearing
  (repeat' split) <;> simp [h]

theorem finishPulse_pending {s : State} (h : s.pulse.pending = true) :
    finishPulse s = { takeTasks (ownTasks ++ otherTasks) s with pulse := PulseWork.none } := if_pos h

/-- The passages that the counts bring are taken last. -/
theorem takeTasks_passages (s : State) :
    ∃ u, takeTasks (ownTasks ++ otherTasks) s = takeAbsent (takeStale (takeDormancy (takeTimeouts u))) := by
  have order : ownTasks ++ otherTasks =
      (ownTasks ++ [.batchVoid, .grantExpiry, .redoDrop, .holdDown, .update]) ++ [.timeouts, .dormancy, .stale, .absent] :=
    rfl
  rw [order, takeTasks, List.foldl_append]
  generalize List.foldl takeTask s _ = u
  refine ⟨u, ?_⟩
  simp only [List.foldl_cons, List.foldl_nil, takeTask]

/-- After the finish nothing that the counts bring is due. -/
theorem finishPulse_noneDue {s : State} (h : s.pulse.pending = true) :
    (∀ i, ¬timeoutDue (finishPulse s) (ctx (finishPulse s) i) = true) ∧
    (∀ i, ¬dormancyDue (finishPulse s) (ctx (finishPulse s) i) = true) ∧
    (∀ j, ¬((finishPulse s).peers.records.get j).staleDue = true) ∧
    (∀ j, ¬((finishPulse s).peers.records.get j).absentDue = true) := by
  obtain ⟨u, last⟩ := takeTasks_passages s
  rw [finishPulse_pending h, last]
  generalize settled : takeDormancy (takeTimeouts u) = v
  have timeouts (i : Index) : ¬timeoutDue v (ctx v i) = true := settled ▸ takeDormancy_noTimeout (takeTimeouts_done u i)
  have dormancy (i : Index) : ¬dormancyDue v (ctx v i) = true := settled ▸ takeDormancy_done (takeTimeouts u) i
  have contexts (i : Index) : ctx (takeAbsent (takeStale v)) i = ctx v i := ctx_congr (by simp) i
  have config : (takeAbsent (takeStale v)).config = v.config := by simp
  have stale (j : Station) : ¬((takeAbsent (takeStale v)).peers.records.get j).staleDue = true :=
    takeAbsent_noStale (takeStale_done v j)
  have absent (j : Station) : ¬((takeAbsent (takeStale v)).peers.records.get j).absentDue = true :=
    takeAbsent_done (takeStale v) j
  generalize takeAbsent (takeStale v) = w at contexts config stale absent
  refine ⟨fun i => ?_, fun i => ?_, stale, absent⟩
  · have kept : ctx { w with pulse := PulseWork.none } i = ctx v i := contexts i
    have limits : ({ w with pulse := PulseWork.none } : State).config = v.config := config
    rw [timeoutDue_iff, kept, limits, ← timeoutDue_iff]
    exact timeouts i
  · have kept : ctx { w with pulse := PulseWork.none } i = ctx v i := contexts i
    have limits : ({ w with pulse := PulseWork.none } : State).config = v.config := config
    rw [dormancyDue_iff, kept, limits, ← dormancyDue_iff]
    exact dormancy i

/-- Settles O2: the parts are taken in the order of `finishPulse`, the passages last, and a frame takes none. -/
theorem laterCommandFinishesPulse : Obligations.LaterCommandFinishesPulse := by
  refine ⟨fun c s h => exec_finishPulse h s, fun s => ⟨finishPulse_idle, fun pending => ?_⟩, fun c s t next frame => ?_⟩
  · obtain ⟨timeouts, dormancy, stale, absent⟩ := finishPulse_noneDue pending
    exact ⟨finishPulse_pending pending, fun i due => timeouts i ((timeoutDue_iff _ _).mpr due),
      fun i due => dormancy i ((dormancyDue_iff _ _).mpr due), fun j due => stale j ((Peer.staleDue_iff _).mpr due),
      fun j due => absent j ((Peer.absentDue_iff _).mpr due)⟩
  · rcases frame with ⟨f, across, rfl | ⟨g, rfl⟩⟩ | ⟨bytes, partialByte, rfl⟩ <;> cases next
    · exact whenHearing_pulse (by simp) s
    · exact whenHearing_pulse (by simp) s
    · exact whenHearing_pulse (by simp) s

end Sys2Proof.Machine
end


section
/-!
PROOFS. The ranking of a direction: who is a candidate, its figures, and the order of R51.
-/
namespace Sys2Proof.Machine

open Sys2Proof

/-! ## The grade table -/

theorem gradeRow_yield (grade : Nat) :
    (gradeRow grade).yield = [0, 2, 4, 8, 12, 16, 20, 24, 28, 34, 40, 46, 52, 58, 64, 72].getD grade 0 := by
  match grade with
  | 0 | 1 | 2 | 3 | 4 | 5 | 6 | 7 | 8 | 9 | 10 | 11 | 12 | 13 | 14 | 15 => rfl
  | n + 16 => rfl

theorem gradeRow_yield_le (grade : Nat) : (gradeRow grade).yield ≤ 72 := by
  match grade with
  | 0 | 1 | 2 | 3 | 4 | 5 | 6 | 7 | 8 | 9 | 10 | 11 | 12 | 13 | 14 | 15 => decide
  | n + 16 => exact Nat.zero_le _

/-- The metric is largest for weight 15, grade 15 and an average of 0. -/
theorem metric_le {weight : Nat} (h : weight ≤ 15) (grade average : Nat) :
    metric weight (gradeRow grade).yield average ≤ 552960 := by
  have top : weight * (gradeRow grade).yield ≤ 15 * 72 := Nat.mul_le_mul h (gradeRow_yield_le grade)
  calc metric weight (gradeRow grade).yield average
      ≤ 15 * 72 * 32768 / (average + 64) := Nat.div_le_div_right (Nat.mul_le_mul_right _ top)
    _ ≤ 15 * 72 * 32768 / 64 := Nat.div_le_div_left (Nat.le_add_left 64 average) (by decide)
    _ = 552960 := by decide

/-! ## The order of R51 -/

theorem rankedBefore_iff (a b : Candidate) :
    rankedBefore a b = true ↔
      b.effectiveClass < a.effectiveClass ∨
        a.effectiveClass = b.effectiveClass ∧
          (b.metric < a.metric ∨ a.metric = b.metric ∧ a.context.val < b.context.val) := by
  simp [rankedBefore]

theorem rankedBefore_trans {a b c : Candidate} (h : rankedBefore a b = true) (g : rankedBefore b c = true) :
    rankedBefore a c = true := by
  rw [rankedBefore_iff] at *
  omega

theorem rankedBefore_total {a b : Candidate} (h : a.context ≠ b.context) :
    rankedBefore a b = !rankedBefore b a := by
  have apart : a.context.val ≠ b.context.val := fun e => h (Fin.ext e)
  rw [Bool.eq_iff_iff, Bool.not_eq_true', ← Bool.not_eq_true, rankedBefore_iff, rankedBefore_iff]
  omega

theorem insertRanked_perm (c : Candidate) (l : List Candidate) : (insertRanked c l).Perm (c :: l) := by
  induction l with
  | nil => exact List.Perm.refl _
  | cons x xs ih =>
    unfold insertRanked
    split
    · exact List.Perm.refl _
    · exact (ih.cons x).trans (List.Perm.swap c x xs)

theorem foldr_insertRanked_perm (l : List Candidate) : (l.foldr insertRanked []).Perm l := by
  induction l with
  | nil => exact List.Perm.refl _
  | cons x xs ih => exact (insertRanked_perm x _).trans (ih.cons x)

/-- A candidate of an index not yet listed takes its place. -/
theorem insertRanked_pairwise {c : Candidate} {l : List Candidate} (sorted : l.Pairwise fun a b => rankedBefore a b = true)
    (new : ∀ x ∈ l, x.context ≠ c.context) :
    (insertRanked c l).Pairwise fun a b => rankedBefore a b = true := by
  induction l with
  | nil => exact List.pairwise_singleton _ _
  | cons x xs ih =>
    obtain ⟨first, rest⟩ := List.pairwise_cons.mp sorted
    unfold insertRanked
    split
    · next before =>
      refine List.pairwise_cons.mpr ⟨fun y hy => ?_, sorted⟩
      rcases List.mem_cons.mp hy with rfl | hy
      · exact before
      · exact rankedBefore_trans before (first y hy)
    · next after =>
      have here : rankedBefore x c = true := by
        rw [rankedBefore_total (new x List.mem_cons_self)]
        simpa using after
      refine List.pairwise_cons.mpr ⟨fun y hy => ?_, ih rest fun y hy => new y (List.mem_cons_of_mem _ hy)⟩
      rcases mem_insertRanked.mp hy with rfl | hy
      · exact here
      · exact first y hy

theorem foldr_insertRanked_pairwise {l : List Candidate} (distinct : (l.map Candidate.context).Nodup) :
    (l.foldr insertRanked []).Pairwise fun a b => rankedBefore a b = true := by
  induction l with
  | nil => exact List.Pairwise.nil
  | cons c l ih =>
    obtain ⟨new, rest⟩ := List.nodup_cons.mp distinct
    refine insertRanked_pairwise (ih rest) fun x hx same => new ?_
    exact List.mem_map.mpr ⟨x, (foldr_insertRanked_perm l).mem_iff.mp hx, same⟩

theorem isCandidate_iff (floor : Nat) (d : Direction) (c : SnapContext) :
    isCandidate floor d c = true ↔
      c.state = .active ∧ floor < c.cls ∧ 1 ≤ c.grade d ∧ c.grade d ≤ 15 ∧ 0 < c.backlog d ∧ c.barredIn d = false := by
  simp only [isCandidate, Bool.and_eq_true, beq_iff_eq, decide_eq_true_eq, Bool.not_eq_true']
  tauto

/-- Settles O45: the conditions and figures are the definitions', the order is total, and the list is an insertion sort. -/
theorem candidateOrderIsTotal : Obligations.CandidateOrderIsTotal := by
  refine ⟨fun floor d c => ?_, fun sn target c => ?_, fun sn => rfl, rankedBefore_iff, fun a b => rankedBefore_total,
    fun sn target d => ⟨foldr_insertRanked_perm _, fun distinct => foldr_insertRanked_pairwise ?_⟩⟩
  · rw [isCandidate_iff]
    cases d <;> simp only [SnapContext.grade, SnapContext.backlog, SnapContext.barredIn, and_true]
  · intro effective figure
    have aged (served : Option Epoch) : (if isAged sn.ageLimit target served then 3 else c.cls) = effective served := by
      cases served <;> simp [isAged, effective]
    have figures (grade avg : Nat) : metric c.weight (gradeRow grade).yield avg = figure grade avg := by
      rw [gradeRow_yield]
      rfl
    refine ⟨?_, ?_, fun weight d => metric_le weight _ _⟩ <;> rw [← aged, ← figures] <;> rfl
  · rw [List.map_map]
    exact distinct.sublist (List.filter_sublist.map _)

end Sys2Proof.Machine
end


section
/-!
PROOFS. The working grids: what painting a rectangle leaves, and that placed grants never overlap (R66).
-/
namespace Sys2Proof.Machine

open Sys2Proof

/-! ## Painting -/

theorem paintSlots_succ (row : List Tile) (slot height : Nat) (t : Tile) :
    paintSlots row slot (height + 1) t = (paintSlots row slot height t).set (slot + height) t := by
  simp [paintSlots, List.range_succ]

theorem paintSlots_length (row : List Tile) (slot height : Nat) (t : Tile) :
    (paintSlots row slot height t).length = row.length := by
  induction height with
  | zero => rfl
  | succ h ih => rw [paintSlots_succ, List.length_set, ih]

theorem getD_paintSlots (row : List Tile) (slot height : Nat) (t d : Tile) (k : Nat) :
    (paintSlots row slot height t).getD k d =
      if slot ≤ k ∧ k < slot + height ∧ k < row.length then t else row.getD k d := by
  induction height with
  | zero => rw [if_neg (by omega)]; rfl
  | succ h ih =>
    simp only [List.getD_eq_getElem?_getD] at ih ⊢
    rw [paintSlots_succ, List.getElem?_set, paintSlots_length]
    by_cases last : slot + h = k
    · subst last
      by_cases inside : slot + h < row.length
      · simp [inside]
      · simp [inside]
    · rw [if_neg last, ih]
      have same : (slot ≤ k ∧ k < slot + (h + 1) ∧ k < row.length) ↔ (slot ≤ k ∧ k < slot + h ∧ k < row.length) := by
        omega
      simp only [same]

theorem paint_succ (g : Grid) (band width slot height : Nat) (t : Tile) :
    paint g band (width + 1) slot height t =
      (paint g band width slot height t).set (band + width)
        (paintSlots ((paint g band width slot height t).getD (band + width) []) slot height t) := by
  simp [paint, List.range_succ]

theorem paint_length (g : Grid) (band width slot height : Nat) (t : Tile) :
    (paint g band width slot height t).length = g.length := by
  induction width with
  | zero => rfl
  | succ w ih => rw [paint_succ, List.length_set, ih]

theorem paintSlots_nil (slot height : Nat) (t : Tile) : paintSlots [] slot height t = [] :=
  List.length_eq_zero_iff.mp (paintSlots_length [] slot height t)

theorem getD_paint (g : Grid) (band width slot height : Nat) (t : Tile) (b : Nat) :
    (paint g band width slot height t).getD b [] =
      if band ≤ b ∧ b < band + width then paintSlots (g.getD b []) slot height t else g.getD b [] := by
  induction width with
  | zero => rw [if_neg (by omega)]; rfl
  | succ w ih =>
    by_cases last : band + w = b
    · subst last
      have before : (paint g band w slot height t).getD (band + w) [] = g.getD (band + w) [] := by
        rw [ih, if_neg (by omega)]
      rw [if_pos (by omega), paint_succ, before, List.getD_eq_getElem?_getD, List.getElem?_set, if_pos rfl, paint_length]
      by_cases inside : band + w < g.length
      · simp [inside]
      · have out : g.getD (band + w) [] = [] := by simp [List.getD_eq_getElem?_getD, Nat.not_lt.mp inside]
        rw [if_neg inside, out, paintSlots_nil]
        rfl
    · have same : (band ≤ b ∧ b < band + (w + 1)) ↔ (band ≤ b ∧ b < band + w) := by omega
      rw [paint_succ, List.getD_eq_getElem?_getD, List.getElem?_set, if_neg last, ← List.getD_eq_getElem?_getD, ih]
      simp only [same]

/-- Painting writes the tiles of the rectangle that lie in the grid. -/
theorem tileAt_paint (g : Grid) (band width slot height : Nat) (t : Tile) (b k : Nat) :
    tileAt (paint g band width slot height t) b k =
      if (band ≤ b ∧ b < band + width) ∧ slot ≤ k ∧ k < slot + height ∧ k < (g.getD b []).length then t
      else tileAt g b k := by
  unfold tileAt
  rw [getD_paint]
  by_cases inside : band ≤ b ∧ b < band + width
  · simp only [inside, if_true, getD_paintSlots, true_and]
  · simp only [inside, if_false, false_and]

/-- A FREE tile lies in the grid. -/
theorem lt_of_tileAt_free {g : Grid} {b k : Nat} (h : tileAt g b k = .free) : k < (g.getD b []).length := by
  by_contra out
  have past : tileAt g b k = .taken := List.getD_eq_default _ _ (Nat.not_lt.mp out)
  rw [past] at h
  cases h

theorem rectFree_iff (g : Grid) (band width slot height : Nat) :
    rectFree g band width slot height = true ↔
      ∀ i j, i < width → j < height → tileAt g (band + i) (slot + j) = .free := by
  simp only [rectFree, List.all_eq_true, List.mem_range, beq_iff_eq]
  exact ⟨fun h i j hi hj => h i hi j hj, fun h i hi j hj => h i j hi hj⟩

/-- The tiles of a FREE rectangle, by their own sub-band and slot. -/
theorem tileAt_of_rectFree {g : Grid} {band width slot height : Nat} (h : rectFree g band width slot height = true)
    {b k : Nat} (hb : band ≤ b ∧ b < band + width) (hk : slot ≤ k ∧ k < slot + height) : tileAt g b k = .free := by
  have free := (rectFree_iff g band width slot height).mp h (b - band) (k - slot) (by omega) (by omega)
  rwa [Nat.add_sub_cancel' hb.1, Nat.add_sub_cancel' hk.1] at free

/-- Painting a FREE rectangle writes exactly its tiles. -/
theorem tileAt_paint_free {g : Grid} {band width slot height : Nat} (h : rectFree g band width slot height = true)
    (t : Tile) (b k : Nat) :
    tileAt (paint g band width slot height t) b k =
      if (band ≤ b ∧ b < band + width) ∧ slot ≤ k ∧ k < slot + height then t else tileAt g b k := by
  rw [tileAt_paint]
  by_cases inside : (band ≤ b ∧ b < band + width) ∧ slot ≤ k ∧ k < slot + height
  · have within := lt_of_tileAt_free (tileAt_of_rectFree h inside.1 inside.2)
    rw [if_pos inside, if_pos ⟨inside.1, inside.2.1, inside.2.2, within⟩]
  · rw [if_neg inside, if_neg fun out => inside ⟨out.1, out.2.1, out.2.2.1⟩]

/-! ## One entry on the grid -/

/-- What one entry does to the grid: only FREE tiles change, and a grant placed takes its own. -/
structure Places (pr q : Progress) : Prop where
  changed : ∀ band slot, tileAt q.grid band slot ≠ tileAt pr.grid band slot →
    tileAt pr.grid band slot = .free ∧ (tileAt q.grid band slot = .taken ∨ tileAt q.grid band slot = .shadow)
  placed : q.placed = pr.placed ∨
    ∃ p, q.placed = pr.placed ++ [p] ∧
      ∀ band slot, p.Covers band slot → tileAt pr.grid band slot = .free ∧ tileAt q.grid band slot = .taken

theorem Places.passedOver {pr q : Progress} (grid : q.grid = pr.grid) (placed : q.placed = pr.placed) : Places pr q :=
  ⟨fun _ _ h => absurd (by rw [grid]) h, .inl placed⟩

theorem rangeQualifies_rectFree {pr : Progress} {grade width first : Nat}
    (h : rangeQualifies pr grade width first = true) : rectFree pr.grid first width 0 8 = true := by
  simp only [rangeQualifies, Bool.and_eq_true] at h
  exact h.1

/-- A downlink range taken: every tile that changes was FREE and is TAKEN, and the grant's tiles are such. -/
theorem tileAt_takeRange (sn : Snapshot) {pr : Progress} (c : Index) {grade width first : Nat} (bytes : Nat)
    (redo : Option RedoEntry) (h : rangeQualifies pr grade width first = true) (band slot : Nat) :
    tileAt (takeRange sn pr c grade width first bytes redo).grid band slot =
      if (first ≤ band ∧ band < first + width) ∧ 0 ≤ slot ∧ slot < 0 + 8 then .taken else tileAt pr.grid band slot :=
  tileAt_paint_free (rangeQualifies_rectFree h) .taken band slot

theorem takeRange_places (sn : Snapshot) {pr : Progress} (c : Index) {grade width first : Nat} (bytes : Nat)
    (redo : Option RedoEntry) (h : rangeQualifies pr grade width first = true) :
    Places pr (takeRange sn pr c grade width first bytes redo) ∧
      ∀ band slot, tileAt (takeRange sn pr c grade width first bytes redo).grid band slot ≠ tileAt pr.grid band slot →
        tileAt pr.grid band slot = .free ∧
          tileAt (takeRange sn pr c grade width first bytes redo).grid band slot = .taken := by
  have taken (band slot : Nat) (inside : (first ≤ band ∧ band < first + width) ∧ 0 ≤ slot ∧ slot < 0 + 8) :
      tileAt pr.grid band slot = .free ∧
        tileAt (takeRange sn pr c grade width first bytes redo).grid band slot = .taken :=
    ⟨tileAt_of_rectFree (rangeQualifies_rectFree h) inside.1 inside.2,
      (tileAt_takeRange sn c bytes redo h band slot).trans (if_pos inside)⟩
  have changed (band slot : Nat)
      (moved : tileAt (takeRange sn pr c grade width first bytes redo).grid band slot ≠ tileAt pr.grid band slot) :
      tileAt pr.grid band slot = .free ∧
        tileAt (takeRange sn pr c grade width first bytes redo).grid band slot = .taken := by
    by_cases inside : (first ≤ band ∧ band < first + width) ∧ 0 ≤ slot ∧ slot < 0 + 8
    · exact taken band slot inside
    · exact absurd ((tileAt_takeRange sn c bytes redo h band slot).trans (if_neg inside)) moved
  refine ⟨⟨fun band slot moved => ?_, .inr ⟨_, rfl, fun band slot covers => ?_⟩⟩, changed⟩
  · obtain ⟨free, now⟩ := changed band slot moved
    exact ⟨free, .inl now⟩
  · obtain ⟨low, high, first, last⟩ := covers
    exact taken band slot ⟨⟨low, high⟩, first, last⟩

theorem findRange_qualifies {sn : Snapshot} {pr : Progress} {grade width f : Nat}
    (h : findRange sn pr grade width = some f) : rangeQualifies pr grade width f = true := List.find?_some h

theorem narrowRange_qualifies {sn : Snapshot} {pr : Progress} {grade width f w : Nat}
    (h : narrowRange sn pr grade width = some (f, w)) : rangeQualifies pr grade w f = true := by
  induction width with
  | zero => cases h
  | succ n ih =>
    unfold narrowRange at h
    split at h
    · next found =>
      cases h
      exact findRange_qualifies found
    · exact ih h

theorem placeDl_places (sn : Snapshot) (pr : Progress) (e : OrderEntry) :
    Places pr (placeDl sn pr e) ∧
      ∀ band slot, tileAt (placeDl sn pr e).grid band slot ≠ tileAt pr.grid band slot →
        tileAt pr.grid band slot = .free ∧ tileAt (placeDl sn pr e).grid band slot = .taken := by
  cases e with
  | redo e =>
    simp only [placeDl]
    split
    · next found => exact takeRange_places sn _ _ _ (findRange_qualifies found)
    · exact ⟨.passedOver rfl rfl, fun _ _ h => absurd rfl h⟩
  | fresh c =>
    simp only [placeDl]
    split
    · next found => exact takeRange_places sn _ _ _ (narrowRange_qualifies found)
    · exact ⟨.passedOver rfl rfl, fun _ _ h => absurd rfl h⟩

/-- An uplink position taken, tile by tile. -/
theorem tileAt_takePosition {pr : Progress} (c : Index) (grade : Nat) {width height k k7 : Nat} {p : Nat × Nat}
    (bytes : Nat) (redo : Option RedoEntry) (h : positionQualifies pr.grid k k7 width height p = true) (band slot : Nat) :
    tileAt (takePosition pr c grade width height k k7 p bytes redo).grid band slot =
      if (p.1 ≤ band ∧ band < p.1 + width) ∧ p.2 ≤ slot ∧ slot < p.2 + height then .taken
      else if (p.1 ≤ band ∧ band < p.1 + width) ∧ p.2 + height - 1 + 1 ≤ slot ∧
          slot < p.2 + height - 1 + 1 + min (shadowSlots k k7 (p.2 + height - 1)) (7 - (p.2 + height - 1)) then .shadow
      else tileAt pr.grid band slot := by
  simp only [positionQualifies, Bool.and_eq_true] at h
  obtain ⟨own, shadow⟩ := h
  have clear : rectFree (paint pr.grid p.1 width p.2 height .taken) p.1 width (p.2 + height - 1 + 1)
      (min (shadowSlots k k7 (p.2 + height - 1)) (7 - (p.2 + height - 1))) = true := by
    rw [rectFree_iff] at shadow ⊢
    intro i j hi hj
    rw [tileAt_paint_free own, if_neg (by omega)]
    exact shadow i j hi hj
  simp only [takePosition]
  rw [tileAt_paint_free clear, tileAt_paint_free own]
  by_cases own : (p.1 ≤ band ∧ band < p.1 + width) ∧ p.2 ≤ slot ∧ slot < p.2 + height
  · rw [if_pos own, if_pos own, if_neg (by omega)]
  · rw [if_neg own, if_neg own]

theorem takePosition_places {pr : Progress} (c : Index) (grade : Nat) {width height k k7 : Nat} {p : Nat × Nat}
    (bytes : Nat) (redo : Option RedoEntry) (h : positionQualifies pr.grid k k7 width height p = true) :
    Places pr (takePosition pr c grade width height k k7 p bytes redo) := by
  have tile := tileAt_takePosition c grade bytes redo h
  simp only [positionQualifies, Bool.and_eq_true] at h
  obtain ⟨own, shadow⟩ := h
  refine ⟨fun band slot moved => ?_, .inr ⟨_, rfl, fun band slot covers => ?_⟩⟩
  · rw [tile] at moved ⊢
    by_cases grant : (p.1 ≤ band ∧ band < p.1 + width) ∧ p.2 ≤ slot ∧ slot < p.2 + height
    · rw [if_pos grant]
      exact ⟨tileAt_of_rectFree own grant.1 grant.2, .inl rfl⟩
    · rw [if_neg grant] at moved ⊢
      split at moved
      · next behind =>
        rw [if_pos behind]
        exact ⟨tileAt_of_rectFree shadow behind.1 behind.2, .inr rfl⟩
      · exact absurd rfl moved
  · obtain ⟨low, high, first, last⟩ := covers
    exact ⟨tileAt_of_rectFree own ⟨low, high⟩ ⟨first, last⟩, by rw [tile, if_pos ⟨⟨low, high⟩, first, last⟩]⟩

theorem findPosition_qualifies {sn : Snapshot} {g : Grid} {k k7 width height : Nat} {p : Nat × Nat}
    (h : findPosition sn g k k7 width height = some p) : positionQualifies g k k7 width height p = true :=
  List.find?_some h

theorem narrowPosition_qualifies {sn : Snapshot} {g : Grid} {k k7 width height found : Nat} {p : Nat × Nat}
    (h : narrowPosition sn g k k7 width height = some (p, found)) : positionQualifies g k k7 width found p = true := by
  induction height with
  | zero => cases h
  | succ n ih =>
    unfold narrowPosition at h
    split at h
    · next found =>
      cases h
      exact findPosition_qualifies found
    · exact ih h

theorem placeUl_places (sn : Snapshot) (pr : Progress) (e : OrderEntry) : Places pr (placeUl sn pr e) := by
  cases e with
  | redo e =>
    simp only [placeUl]
    split
    · split
      · exact .passedOver rfl rfl
      · split
        · next found => exact takePosition_places _ _ _ _ (findPosition_qualifies found)
        · exact .passedOver rfl rfl
    · exact .passedOver rfl rfl
  | fresh c =>
    simp only [placeUl]
    split
    · next found => exact takePosition_places _ _ _ _ (narrowPosition_qualifies found)
    · exact .passedOver rfl rfl

/-! ## A whole placement -/

/-- What holds of a placement under way that began on a grid. -/
structure PlacedApart (start : Grid) (pr : Progress) : Prop where
  apart : pr.placed.Pairwise Placed.Apart
  covered : ∀ p ∈ pr.placed, ∀ band slot, p.Covers band slot →
    tileAt start band slot = .free ∧ tileAt pr.grid band slot = .taken
  kept : ∀ band slot, tileAt start band slot ≠ .free → tileAt pr.grid band slot = tileAt start band slot

/-- One entry more: a grant takes FREE tiles, so none that an earlier one covers. -/
theorem PlacedApart.next {start : Grid} {pr q : Progress} (h : PlacedApart start pr) (step : Places pr q) :
    PlacedApart start q := by
  have unmoved (band slot : Nat) (busy : tileAt pr.grid band slot ≠ .free) :
      tileAt q.grid band slot = tileAt pr.grid band slot := by
    by_contra moved
    exact busy (step.changed band slot moved).1
  have kept (band slot : Nat) (busy : tileAt start band slot ≠ .free) :
      tileAt q.grid band slot = tileAt start band slot := by
    have before := h.kept band slot busy
    rw [unmoved band slot (before ▸ busy), before]
  have old (p : Placed) (mem : p ∈ pr.placed) (band slot : Nat) (covers : p.Covers band slot) :
      tileAt start band slot = .free ∧ tileAt q.grid band slot = .taken := by
    obtain ⟨free, taken⟩ := h.covered p mem band slot covers
    exact ⟨free, (unmoved band slot (by simp [taken])).trans taken⟩
  rcases step.placed with same | ⟨new, grown, own⟩
  · exact ⟨same ▸ h.apart, same ▸ old, kept⟩
  refine ⟨?_, fun p mem band slot covers => ?_, kept⟩
  · rw [grown, List.pairwise_append]
    refine ⟨h.apart, List.pairwise_singleton _ _, fun p mem p' new' band slot both => ?_⟩
    rw [List.mem_singleton.mp new'] at both
    have taken := (h.covered p mem band slot both.1).2
    rw [(own band slot both.2).1] at taken
    cases taken
  · rw [grown, List.mem_append, List.mem_singleton] at mem
    rcases mem with mem | rfl
    · exact old p mem band slot covers
    · refine ⟨?_, (own band slot covers).2⟩
      by_contra busy
      exact busy (h.kept band slot busy ▸ (own band slot covers).1)

theorem placedApart_foldl {place : Progress → OrderEntry → Progress} (step : ∀ pr e, Places pr (place pr e))
    (l : List OrderEntry) {start : Grid} {pr : Progress} (h : PlacedApart start pr) :
    PlacedApart start (l.foldl (placeNext place) pr) := by
  induction l generalizing pr with
  | nil => exact h
  | cons e l ih =>
    refine ih ?_
    unfold placeNext
    split
    · exact h.next (step pr e)
    · exact h

theorem placedApart_start (g : Grid) (remaining : Nat) :
    PlacedApart g { grid := g, remaining := remaining, placed := [], unplaced := 0 } :=
  ⟨List.Pairwise.nil, fun _ mem => absurd mem List.not_mem_nil, fun _ _ _ => rfl⟩

theorem placeDownlink_apart (r : Run) : PlacedApart r.dlGrid (placeDownlink r) :=
  placedApart_foldl (fun pr e => (placeDl_places r.snapshot pr e).1) _ (placedApart_start _ _)

theorem placeUplink_apart (r : Run) : PlacedApart r.ulGrid (placeUplink r) :=
  placedApart_foldl (placeUl_places r.snapshot) _ (placedApart_start _ _)

/-- Settles O42, by the invariant `PlacedApart` of both directions. -/
theorem placedGrantsNeverOverlap : Obligations.PlacedGrantsNeverOverlap := by
  refine ⟨fun r => ?_, fun sn pr e band slot => ?_⟩
  · have dl := placeDownlink_apart r
    have ul := placeUplink_apart r
    exact ⟨dl.apart, ul.apart, fun p band slot => ⟨fun mem => dl.covered p mem band slot,
      fun mem => ul.covered p mem band slot⟩, ul.kept⟩
  · exact ⟨(placeUl_places sn pr e).changed band slot, (placeDl_places sn pr e).2 band slot⟩

end Sys2Proof.Machine
end


section
/-!
PROOFS. Which range and which position an entry takes: the order the steps try them, and narrowing (R68–R70, R73–R78).
-/
namespace Sys2Proof.Machine

open Sys2Proof

/-! ## First of an ordered list -/

/-- In a strictly ordered list the search finds the element that passes and that no passing one precedes. -/
theorem find?_eq_some_of_first {α : Type} {r : α → α → Prop} {l : List α} {p : α → Bool} {a : α}
    (sorted : l.Pairwise r) (mem : a ∈ l) (passes : p a = true) (first : ∀ b ∈ l, p b = true → ¬r b a) :
    l.find? p = some a := by
  induction l with
  | nil => cases mem
  | cons x xs ih =>
    obtain ⟨before, rest⟩ := List.pairwise_cons.mp sorted
    by_cases hx : p x = true
    · rcases List.mem_cons.mp mem with rfl | later
      · exact List.find?_cons_of_pos hx
      · exact absurd (before a later) (first x List.mem_cons_self hx)
    · rw [List.find?_cons_of_neg hx]
      rcases List.mem_cons.mp mem with rfl | later
      · exact absurd passes hx
      · exact ih rest later fun b hb => first b (List.mem_cons_of_mem _ hb)

/-- A search over lists tried in turn finds what the first list with a passing element gives. -/
theorem find?_flatten_eq_some {α : Type} {stages : List (List α)} {p : α → Bool} {n : Nat} {a : α}
    (early : ∀ m < n, ∀ b ∈ stages.getD m [], ¬p b = true) (found : (stages.getD n []).find? p = some a) :
    stages.flatten.find? p = some a := by
  induction stages generalizing n with
  | nil => simp at found
  | cons l stages ih =>
    rw [List.flatten_cons, List.find?_append]
    cases n with
    | zero =>
      rw [List.getD_cons_zero] at found
      rw [found, Option.some_or]
    | succ n =>
      have none : l.find? p = none := List.find?_eq_none.mpr (early 0 n.succ_pos)
      rw [none, Option.none_or]
      exact ih (fun m hm => early (m + 1) (Nat.succ_lt_succ hm)) found

/-! ## The steps of R69 -/

theorem rangeInside_iff (u : SubBands) (first width : Nat) :
    rangeInside u first width = true ↔ ∀ i, i < width → u.getLsbD (first + i) = true := by
  simp [rangeInside]

theorem isEdgeGrade_iff (edgeGrade grade : Nat) : isEdgeGrade edgeGrade grade = true ↔ 1 ≤ grade ∧ grade ≤ edgeGrade := by
  simp [isEdgeGrade]

theorem mem_firstBands (bands width f : Nat) : f ∈ firstBands bands width ↔ f + width ≤ bands := by
  simp only [firstBands, List.mem_range]
  omega

/-- The ranges of a width, step by step. -/
def rangeSteps (sn : Snapshot) (grade width : Nat) : List (List Nat) :=
  let up := firstBands sn.bands.bands width
  if 1 ≤ grade ∧ grade ≤ sn.edgeGrade then
    [up.filter fun f => rangeInside sn.ownSet f width && !rangeTouches sn.blockedSet f width,
      up.filter fun f => !rangeTouches sn.blockedSet f width]
  else
    [up.reverse.filter fun f => !rangeTouches sn.ownSet f width && !rangeTouches sn.blockedSet f width,
      if sn.quietGrade ≤ grade then up.reverse.filter fun f => !rangeTouches sn.ownSet f width else [],
      up.reverse.filter fun f => !rangeTouches sn.blockedSet f width]

theorem rangesTried_eq (sn : Snapshot) (grade width : Nat) :
    rangesTried sn grade width = (rangeSteps sn grade width).flatten := by
  simp only [rangesTried, rangeSteps, isEdgeGrade_iff]
  split <;> simp

/-- A step holds exactly the ranges that R69 tries in it. -/
theorem mem_rangeSteps (sn : Snapshot) (grade width f n : Nat) :
    f ∈ (rangeSteps sn grade width).getD n [] ↔
      f + width ≤ sn.bands.bands ∧ sn.Tries grade width f (n + 1) := by
  simp only [rangeSteps, Snapshot.Tries]
  split
  · match n with
    | 0 => simp [mem_firstBands, rangeInside_iff, rangeTouches]
    | 1 => simp [mem_firstBands, rangeTouches]
    | n + 2 => simp
  · match n with
    | 0 => simp [mem_firstBands, rangeTouches]
    | 1 => by_cases quiet : sn.quietGrade ≤ grade <;> simp [mem_firstBands, rangeTouches, quiet]
    | 2 => simp [mem_firstBands, rangeTouches]
    | n + 3 => simp

/-- Within a step the ranges go upward for an edge grade and downward for another. -/
theorem rangeSteps_sorted (sn : Snapshot) (grade width n : Nat) :
    ((rangeSteps sn grade width).getD n []).Pairwise fun a b =>
      if 1 ≤ grade ∧ grade ≤ sn.edgeGrade then a < b else b < a := by
  have up : (firstBands sn.bands.bands width).Pairwise (· < ·) := List.pairwise_lt_range
  have down : (firstBands sn.bands.bands width).reverse.Pairwise fun a b => b < a := List.pairwise_reverse.mpr up
  simp only [rangeSteps]
  split
  · match n with
    | 0 | 1 => exact up.filter _
    | n + 2 => exact List.Pairwise.nil
  · match n with
    | 0 | 2 => exact down.filter _
    | 1 =>
      show List.Pairwise _ (if sn.quietGrade ≤ grade then _ else _)
      split
      · exact down.filter _
      · exact List.Pairwise.nil
    | n + 3 => exact List.Pairwise.nil

/-! ## Downlink -/

theorem rangeQualifies_iff (sn : Snapshot) (pr : Progress) (grade width f : Nat) :
    f + width ≤ sn.bands.bands ∧ rangeQualifies pr grade width f = true ↔ sn.RangeFits pr grade width f := by
  simp only [rangeQualifies, Bool.and_eq_true, rectFree_iff, decide_eq_true_eq, Snapshot.RangeFits, Nat.zero_add]
  rfl

theorem findRange_eq_none {sn : Snapshot} {pr : Progress} {grade width : Nat}
    (h : ∀ f, ¬sn.RangeQualifies pr grade width f) : findRange sn pr grade width = none := by
  refine List.find?_eq_none.mpr fun f mem passes => ?_
  rw [rangesTried_eq, List.mem_flatten] at mem
  obtain ⟨l, step, mem⟩ := mem
  obtain ⟨n, hn, rfl⟩ := List.mem_iff_getElem.mp step
  rw [← List.getD_eq_getElem _ [] hn, mem_rangeSteps] at mem
  exact h f ⟨(rangeQualifies_iff sn pr grade width f).mp ⟨mem.1, passes⟩, n + 1, mem.2⟩

theorem findRange_eq_some {sn : Snapshot} {pr : Progress} {grade width f : Nat}
    (h : sn.RangeFirst pr grade width f) : findRange sn pr grade width = some f := by
  obtain ⟨fits, n, tries, first⟩ := h
  obtain ⟨m, rfl⟩ : ∃ m, n = m + 1 := by
    refine ⟨n - 1, ?_⟩
    unfold Snapshot.Tries at tries
    split at tries <;> omega
  obtain ⟨within, passes⟩ := (rangeQualifies_iff sn pr grade width f).mpr fits
  have order (k b : Nat) (mem : b ∈ (rangeSteps sn grade width).getD k [])
      (hb : rangeQualifies pr grade width b = true) :
      m + 1 < k + 1 ∨ m + 1 = k + 1 ∧ if 1 ≤ grade ∧ grade ≤ sn.edgeGrade then f ≤ b else b ≤ f := by
    obtain ⟨room, try_b⟩ := (mem_rangeSteps sn grade width b k).mp mem
    exact first b (k + 1) ((rangeQualifies_iff sn pr grade width b).mp ⟨room, hb⟩) try_b
  rw [findRange, rangesTried_eq]
  refine find?_flatten_eq_some (n := m) (fun k early b mem hb => ?_) ?_
  · have := order k b mem hb
    omega
  · refine find?_eq_some_of_first (rangeSteps_sorted sn grade width m)
      ((mem_rangeSteps sn grade width f m).mpr ⟨within, tries⟩) passes fun b mem hb => ?_
    have := order m b mem hb
    split at this <;> split <;> omega

theorem narrowRange_eq_none {sn : Snapshot} {pr : Progress} {grade start : Nat}
    (h : ∀ w f, 1 ≤ w → w ≤ start → ¬sn.RangeQualifies pr grade w f) : narrowRange sn pr grade start = none := by
  induction start with
  | zero => rfl
  | succ n ih =>
    have here := findRange_eq_none fun f => h (n + 1) f (by omega) (Nat.le_refl _)
    simp only [narrowRange, here]
    exact ih fun w f hw hn => h w f hw (by omega)

theorem narrowRange_eq_some {sn : Snapshot} {pr : Progress} {grade start w f : Nat} (pos : 1 ≤ w) (le : w ≤ start)
    (first : sn.RangeFirst pr grade w f) (wider : ∀ w' f', w < w' → w' ≤ start → ¬sn.RangeQualifies pr grade w' f') :
    narrowRange sn pr grade start = some (f, w) := by
  induction start with
  | zero => omega
  | succ n ih =>
    rcases Nat.lt_or_eq_of_le le with lt | rfl
    · have here := findRange_eq_none fun f' => wider (n + 1) f' lt (Nat.le_refl _)
      simp only [narrowRange, here]
      exact ih (by omega) fun w' f' hw hn => wider w' f' hw (by omega)
    · simp only [narrowRange, findRange_eq_some first]

/-- Settles O43, by what the search over the steps and the widths finds. -/
theorem downlinkEntryIsPlaced : Obligations.DownlinkEntryIsPlaced := by
  intro sn pr edge taken
  refine ⟨fun c => ⟨fun none => ?_, fun w f pos le first wider => ?_⟩, fun e => ⟨fun none => ?_, fun f first => ?_⟩⟩
  · have passed : narrowRange sn pr c.grade (dlStartWidth c.backlog (gradeRow c.grade).yield) = .none :=
      narrowRange_eq_none none
    simp only [placeDl, passed]
  · have found : narrowRange sn pr c.grade (dlStartWidth c.backlog (gradeRow c.grade).yield) = some (f, w) :=
      narrowRange_eq_some pos le first wider
    simp only [placeDl, found]
    rfl
  · simp only [placeDl, findRange_eq_none none]
  · simp only [placeDl, findRange_eq_some first]
    rfl

/-! ## Uplink -/

theorem mem_firstSlots (k height x : Nat) : x ∈ firstSlots k height ↔ x + height ≤ 8 := by
  simp only [firstSlots, Config.slots]
  split <;> simp only [List.mem_reverse, List.mem_range] <;> omega

/-- Positions in the order tried: by first slot, downward for a late subscriber, then by sub-band upward. -/
def positionBefore (k : Nat) (a b : Nat × Nat) : Prop :=
  (if 1 ≤ k then b.2 < a.2 else a.2 < b.2) ∨ a.2 = b.2 ∧ a.1 < b.1

theorem mem_positionsTried (bands k width height : Nat) (p : Nat × Nat) :
    p ∈ positionsTried bands k width height ↔ p.1 + width ≤ bands ∧ p.2 + height ≤ 8 := by
  obtain ⟨f, x⟩ := p
  simp only [positionsTried, List.mem_flatMap, List.mem_map, mem_firstSlots, mem_firstBands, Prod.mk.injEq]
  constructor
  · rintro ⟨_, hx, _, hf, rfl, rfl⟩
    exact ⟨hf, hx⟩
  · rintro ⟨hf, hx⟩
    exact ⟨x, hx, f, hf, rfl, rfl⟩

theorem firstSlots_sorted (k height : Nat) :
    (firstSlots k height).Pairwise fun a b => if 1 ≤ k then b < a else a < b := by
  unfold firstSlots
  dsimp only
  split
  · exact List.pairwise_reverse.mpr List.pairwise_lt_range
  · exact List.pairwise_lt_range

theorem positionsTried_sorted (bands k width height : Nat) :
    (positionsTried bands k width height).Pairwise (positionBefore k) := by
  refine List.pairwise_flatMap.mpr ⟨fun x _ => ?_, (firstSlots_sorted k height).imp fun {x y} before p hp q hq => ?_⟩
  · exact List.pairwise_map.mpr (List.pairwise_lt_range.imp fun lt => .inr ⟨rfl, lt⟩)
  · obtain ⟨f, -, rfl⟩ := List.mem_map.mp hp
    obtain ⟨g, -, rfl⟩ := List.mem_map.mp hq
    exact .inl before

theorem shadowSlots_eq (sn : Snapshot) (rtd margin : Nat) {h x : Nat} :
    shadowSlots (sn.k rtd margin) (sn.k7 rtd margin) (x + h - 1) = sn.shadowBehind rtd margin h x := by
  have last : x + h - 1 = 7 ↔ x + h = 8 := by omega
  simp only [shadowSlots, Snapshot.shadowBehind, last]
  rfl

theorem positionQualifies_iff (sn : Snapshot) (pr : Progress) (rtd margin w : Nat) {h : Nat} (pos : 1 ≤ h) (f x : Nat) :
    (f + w ≤ sn.bands.bands ∧ x + h ≤ 8) ∧
        positionQualifies pr.grid (sn.k rtd margin) (sn.k7 rtd margin) w h (f, x) = true ↔
      sn.PositionQualifies pr rtd margin w h f x := by
  simp only [positionQualifies, Bool.and_eq_true, rectFree_iff, Snapshot.PositionQualifies, shadowSlots_eq sn _ _,
    and_assoc]
  refine and_congr_right fun _ => and_congr_right fun within => and_congr_right fun _ => ?_
  rw [Nat.sub_add_cancel (by omega)]
  exact ⟨fun free i j hi hj lt => free i j hi (by omega), fun free i j hi hj => free i j hi (by omega) (by omega)⟩

theorem findPosition_eq_none {sn : Snapshot} {pr : Progress} {rtd margin w h : Nat} (pos : 1 ≤ h)
    (none : ∀ f x, ¬sn.PositionQualifies pr rtd margin w h f x) :
    findPosition sn pr.grid (sn.k rtd margin) (sn.k7 rtd margin) w h = .none :=
  List.find?_eq_none.mpr fun p mem passes =>
    none p.1 p.2 ((positionQualifies_iff sn pr rtd margin w pos p.1 p.2).mp ⟨(mem_positionsTried _ _ _ _ p).mp mem, passes⟩)

theorem findPosition_eq_some {sn : Snapshot} {pr : Progress} {rtd margin w h f x : Nat} (pos : 1 ≤ h)
    (first : sn.PositionFirst pr rtd margin w h f x) :
    findPosition sn pr.grid (sn.k rtd margin) (sn.k7 rtd margin) w h = some (f, x) := by
  obtain ⟨qualifies, first⟩ := first
  obtain ⟨within, passes⟩ := (positionQualifies_iff sn pr rtd margin w pos f x).mpr qualifies
  refine find?_eq_some_of_first (positionsTried_sorted _ _ _ _) ((mem_positionsTried _ _ _ _ (f, x)).mpr within) passes
    fun p mem hp before => ?_
  have order := first p.1 p.2
    ((positionQualifies_iff sn pr rtd margin w pos p.1 p.2).mp ⟨(mem_positionsTried _ _ _ _ p).mp mem, hp⟩)
  have before : (if 1 ≤ shadowCount sn.advanceLimit sn.slotTime rtd margin then x < p.2 else p.2 < x) ∨
    p.2 = x ∧ p.1 < f := before
  split at order <;> split at before <;> omega

theorem narrowPosition_eq_none {sn : Snapshot} {pr : Progress} {rtd margin w start : Nat}
    (none : ∀ h f x, 1 ≤ h → h ≤ start → ¬sn.PositionQualifies pr rtd margin w h f x) :
    narrowPosition sn pr.grid (sn.k rtd margin) (sn.k7 rtd margin) w start = .none := by
  induction start with
  | zero => rfl
  | succ n ih =>
    have here := findPosition_eq_none (Nat.succ_pos n) fun f x => none (n + 1) f x (by omega) (Nat.le_refl _)
    simp only [narrowPosition, here]
    exact ih fun h f x hh hn => none h f x hh (by omega)

theorem narrowPosition_eq_some {sn : Snapshot} {pr : Progress} {rtd margin w start h f x : Nat} (pos : 1 ≤ h)
    (le : h ≤ start) (first : sn.PositionFirst pr rtd margin w h f x)
    (taller : ∀ h' f' x', h < h' → h' ≤ start → ¬sn.PositionQualifies pr rtd margin w h' f' x') :
    narrowPosition sn pr.grid (sn.k rtd margin) (sn.k7 rtd margin) w start = some ((f, x), h) := by
  induction start with
  | zero => omega
  | succ n ih =>
    rcases Nat.lt_or_eq_of_le le with lt | rfl
    · have here := findPosition_eq_none (Nat.succ_pos n) fun f' x' => taller (n + 1) f' x' lt (Nat.le_refl _)
      simp only [narrowPosition, here]
      exact ih (by omega) fun h' f' x' hh hn => taller h' f' x' hh (by omega)
    · simp only [narrowPosition, findPosition_eq_some pos first]

theorem mem_spillTiles (first width last shadow band slot : Nat) :
    (band, slot) ∈ spillTiles first width last shadow ↔
      first ≤ band ∧ band < first + width ∧ last + 1 ≤ slot + 8 ∧ slot + 8 < last + 1 + shadow := by
  simp only [spillTiles, List.mem_flatMap, List.mem_map, List.mem_filter, List.mem_range, decide_eq_true_eq,
    Prod.mk.injEq]
  constructor
  · rintro ⟨i, hi, j, ⟨hj, past⟩, rfl, rfl⟩
    omega
  · rintro ⟨low, high, from_last, to_shadow⟩
    exact ⟨band - first, by omega, slot + 8 - (last + 1), ⟨by omega, by omega⟩, by omega, by omega⟩

theorem spillTiles_nodup (first width last shadow : Nat) : (spillTiles first width last shadow).Nodup := by
  refine List.pairwise_flatMap.mpr ⟨fun i _ => ?_, List.pairwise_lt_range.imp fun {i j} lt p hp q hq same => ?_⟩
  · refine List.pairwise_map.mpr (List.Pairwise.imp_of_mem (fun {j j'} hj hj' lt same => ?_)
      (List.pairwise_lt_range.filter _))
    have past := (List.mem_filter.mp hj).2
    have past' := (List.mem_filter.mp hj').2
    simp only [decide_eq_true_eq, Prod.mk.injEq] at past past' same
    omega
  · obtain ⟨a, -, rfl⟩ := List.mem_map.mp hp
    obtain ⟨b, -, rfl⟩ := List.mem_map.mp hq
    simp only [Prod.mk.injEq] at same
    omega

/-- A position taken where it qualifies: the figures, the grid tile by tile, and the grant. -/
theorem takePosition_effect (sn : Snapshot) (pr : Progress) (context : Index) (grade bytes : Nat)
    (redo : Option RedoEntry) {rtd margin w h f x : Nat} (pos : 1 ≤ h)
    (q : sn.PositionQualifies pr rtd margin w h f x) :
    let t := takePosition pr context grade w h (sn.k rtd margin) (sn.k7 rtd margin) (f, x) bytes redo
    t.remaining = pr.remaining ∧ t.unplaced = pr.unplaced ∧
    (∀ band slot, tileAt t.grid band slot =
      if f ≤ band ∧ band < f + w ∧ x ≤ slot ∧ slot < x + h then .taken
      else if f ≤ band ∧ band < f + w ∧ x + h ≤ slot ∧ slot < x + h + sn.shadowBehind rtd margin h x ∧ slot < 8
      then .shadow
      else tileAt pr.grid band slot) ∧
    ∃ spill,
      t.placed =
        pr.placed ++
          [{ context := context, direction := .ul, firstBand := f, width := w, firstSlot := x, height := h,
             grade := grade, capacity := w * h * (gradeRow grade).yield, bytes := bytes, tilePower := 0,
             redo := redo, edge := false, spill := spill }] ∧
      spill.Nodup ∧
      (∀ band slot, (band, slot) ∈ spill ↔
        f ≤ band ∧ band < f + w ∧ x + h ≤ slot + 8 ∧ slot + 8 < x + h + sn.shadowBehind rtd margin h x) := by
  have within := q.2.1
  have passes := ((positionQualifies_iff sn pr rtd margin w pos f x).mpr q).2
  refine ⟨rfl, rfl, fun band slot => ?_, _, rfl, spillTiles_nodup _ _ _ _, fun band slot => ?_⟩
  · rw [tileAt_takePosition context grade bytes redo passes, shadowSlots_eq sn _ _]
    have own : ((f ≤ band ∧ band < f + w) ∧ x ≤ slot ∧ slot < x + h) ↔
        (f ≤ band ∧ band < f + w ∧ x ≤ slot ∧ slot < x + h) := and_assoc
    have behind : ((f ≤ band ∧ band < f + w) ∧ x + h - 1 + 1 ≤ slot ∧
          slot < x + h - 1 + 1 + min (sn.shadowBehind rtd margin h x) (7 - (x + h - 1))) ↔
        (f ≤ band ∧ band < f + w ∧ x + h ≤ slot ∧ slot < x + h + sn.shadowBehind rtd margin h x ∧ slot < 8) := by
      omega
    simp only [own, behind]
  · rw [mem_spillTiles, shadowSlots_eq sn _ _]
    simp only [Nat.sub_add_cancel (show 1 ≤ x + h by omega)]

/-- Settles O44, by what the search over positions and heights finds and what taking a position writes. -/
theorem uplinkEntryIsPlaced : Obligations.UplinkEntryIsPlaced := by
  intro sn pr taken
  refine ⟨fun c => ⟨fun none => ?_, fun h f x pos le first taller => ?_⟩, fun e pos => ⟨fun unknown => ?_,
    fun c known => ⟨fun barred => ?_, fun free => ⟨fun none => ?_, fun f x first => ?_⟩⟩⟩⟩
  · have passed : narrowPosition sn pr.grid (sn.k c.rtd c.lateMargin) (sn.k7 c.rtd c.lateMargin) (gradeRow c.grade).ulWidth
        (ulStartHeight c.backlog (gradeRow c.grade).yield (gradeRow c.grade).ulWidth) = .none := narrowPosition_eq_none none
    simp only [placeUl]
    rw [passed]
  · have found : narrowPosition sn pr.grid (sn.k c.rtd c.lateMargin) (sn.k7 c.rtd c.lateMargin) (gradeRow c.grade).ulWidth
        (ulStartHeight c.backlog (gradeRow c.grade).yield (gradeRow c.grade).ulWidth) = some ((f, x), h) := narrowPosition_eq_some pos le first taller
    simp only [placeUl]
    rw [found]
    exact takePosition_effect sn pr _ _ _ _ pos first.1
  · have absent : sn.find e.context = none := unknown
    simp only [placeUl, absent]
  · have present : sn.find e.context = some c := known
    simp only [placeUl, present, barred, if_true]
  · have present : sn.find e.context = some c := known
    simp only [placeUl, present, free, findPosition_eq_none pos none, Bool.false_eq_true, if_false]
  · have present : sn.find e.context = some c := known
    simp only [placeUl, present, free, findPosition_eq_some pos first, Bool.false_eq_true, if_false]
    exact takePosition_effect sn pr _ _ _ _ pos first.1

end Sys2Proof.Machine
end


section
/-!
PROOFS. The completion of a run: the PLAN it delivers and what it hands on (R22, R55–R57, R79–R84, R122).
-/
namespace Sys2Proof.Machine

open Sys2Proof

/-! ## Directions and power of the placed grants -/

/-- What holds of a downlink placement under way: its grants and their power within the allowance (R70, R71). -/
structure DownlinkWithin (allowance : Nat) (pr : Progress) : Prop where
  direction : ∀ p ∈ pr.placed, p.direction = .dl
  power : planPower pr.placed + pr.remaining = allowance

theorem planPower_append (l m : List Placed) : planPower (l ++ m) = planPower l + planPower m := by
  simp [planPower]

theorem takeRange_within {sn : Snapshot} {pr : Progress} {allowance : Nat} (h : DownlinkWithin allowance pr) (c : Index)
    {grade width first : Nat} (bytes : Nat) (redo : Option RedoEntry)
    (q : rangeQualifies pr grade width first = true) :
    DownlinkWithin allowance (takeRange sn pr c grade width first bytes redo) := by
  simp only [rangeQualifies, Bool.and_eq_true, decide_eq_true_eq] at q
  refine ⟨fun p mem => ?_, ?_⟩
  · rcases List.mem_append.mp mem with mem | mem
    · exact h.direction p mem
    · rw [List.mem_singleton.mp mem]
  · have power := h.power
    have own : width * 8 * (gradeRow grade).cost = dlPower grade width := by
      simp [dlPower, Config.slots, Nat.mul_comm]
    have total : planPower (takeRange sn pr c grade width first bytes redo).placed =
        planPower pr.placed + dlPower grade width := by
      rw [← own]
      simp [takeRange, planPower_append]
      rfl
    have left : (takeRange sn pr c grade width first bytes redo).remaining = pr.remaining - dlPower grade width := rfl
    omega

theorem placeDl_within {sn : Snapshot} {pr : Progress} {allowance : Nat} (h : DownlinkWithin allowance pr)
    (e : OrderEntry) : DownlinkWithin allowance (placeDl sn pr e) := by
  cases e with
  | redo e =>
    simp only [placeDl]
    split
    · next found => exact takeRange_within h _ _ _ (findRange_qualifies found)
    · exact h
  | fresh c =>
    simp only [placeDl]
    split
    · next found => exact takeRange_within h _ _ _ (narrowRange_qualifies found)
    · exact ⟨h.direction, h.power⟩

theorem placeUl_uplink {sn : Snapshot} {pr : Progress}
    (h : ∀ p ∈ pr.placed, p.direction = .ul ∧ p.tilePower = 0) (e : OrderEntry) :
    ∀ p ∈ (placeUl sn pr e).placed, p.direction = .ul ∧ p.tilePower = 0 := by
  have grown (c : Index) (grade width height k k7 : Nat) (q : Nat × Nat) (bytes : Nat) (redo : Option RedoEntry) :
      ∀ p ∈ (takePosition pr c grade width height k k7 q bytes redo).placed, p.direction = .ul ∧ p.tilePower = 0 := by
    intro p mem
    rcases List.mem_append.mp mem with mem | mem
    · exact h p mem
    · rw [List.mem_singleton.mp mem]
      exact ⟨rfl, rfl⟩
  cases e with
  | redo e =>
    simp only [placeUl]
    split
    · split
      · exact h
      · split
        · exact grown _ _ _ _ _ _ _ _ _
        · exact h
    · exact h
  | fresh c =>
    simp only [placeUl]
    split
    · exact grown _ _ _ _ _ _ _ _ _
    · exact h

/-- What every entry keeps holds of a whole placement. -/
theorem foldl_placeNext_keeps {P : Progress → Prop} {place : Progress → OrderEntry → Progress}
    (step : ∀ pr e, P pr → P (place pr e)) (l : List OrderEntry) {pr : Progress} (h : P pr) :
    P (l.foldl (placeNext place) pr) := by
  refine List.foldlRecOn (motive := P) l (placeNext place) h fun pr hp e _ => ?_
  unfold placeNext
  split
  · exact step pr e hp
  · exact hp

theorem placeDownlink_within (r : Run) : DownlinkWithin r.snapshot.allowance (placeDownlink r) :=
  foldl_placeNext_keeps (P := DownlinkWithin r.snapshot.allowance) (fun _ e h => placeDl_within h e) _
    ⟨fun _ mem => absurd mem List.not_mem_nil, Nat.zero_add _⟩

theorem placeUplink_uplink (r : Run) : ∀ p ∈ (placeUplink r).placed, p.direction = .ul ∧ p.tilePower = 0 :=
  foldl_placeNext_keeps (P := fun pr => ∀ p ∈ pr.placed, p.direction = .ul ∧ p.tilePower = 0)
    (fun _ e h => placeUl_uplink h e) _ fun _ mem => absurd mem List.not_mem_nil

/-! ## The delivered grants by direction -/

/-- The delivered grants of the downlink. -/
def deliveredDl (s : State) (r : Run) : List Placed := (placeDownlink r).placed.filter (survives s r.snapshot)

/-- The delivered grants of the uplink. -/
def deliveredUl (s : State) (r : Run) : List Placed := (placeUplink r).placed.filter (survives s r.snapshot)

theorem deliveredGrants_eq (s : State) (r : Run) : deliveredGrants s r = deliveredDl s r ++ deliveredUl s r :=
  List.filter_append _ _

theorem deliveredDl_direction {s : State} {r : Run} {p : Placed} (h : p ∈ deliveredDl s r) : p.direction = .dl :=
  (placeDownlink_within r).direction p (List.mem_filter.mp h).1

theorem deliveredUl_direction {s : State} {r : Run} {p : Placed} (h : p ∈ deliveredUl s r) : p.direction = .ul :=
  (placeUplink_uplink r p (List.mem_filter.mp h).1).1

theorem planOf_counts (s : State) (r : Run) :
    (planOf r (deliveredGrants s r)).dlCount = (deliveredDl s r).length ∧
      (planOf r (deliveredGrants s r)).ulCount = (deliveredUl s r).length := by
  have dl_all : (deliveredDl s r).filter (fun p => p.direction == .dl) = deliveredDl s r :=
    List.filter_eq_self.mpr fun p h => by simp [deliveredDl_direction h]
  have ul_none : (deliveredUl s r).filter (fun p => p.direction == .dl) = [] :=
    List.filter_eq_nil_iff.mpr fun p h => by simp [deliveredUl_direction h]
  have dl_none : (deliveredDl s r).filter (fun p => p.direction == .ul) = [] :=
    List.filter_eq_nil_iff.mpr fun p h => by simp [deliveredDl_direction h]
  have ul_all : (deliveredUl s r).filter (fun p => p.direction == .ul) = deliveredUl s r :=
    List.filter_eq_self.mpr fun p h => by simp [deliveredUl_direction h]
  simp [planOf, deliveredGrants_eq, dl_all, ul_none, dl_none, ul_all]

/-- The plan power does not exceed the run's allowance (R71). -/
theorem planPower_le (s : State) (r : Run) : planPower (deliveredGrants s r) ≤ r.snapshot.allowance := by
  have dl : planPower (deliveredDl s r) ≤ planPower (placeDownlink r).placed :=
    (List.filter_sublist.map Placed.power).sum_le_sum fun _ _ => Nat.zero_le _
  have ul : planPower (deliveredUl s r) = 0 := by
    refine List.sum_eq_zero fun n hn => ?_
    obtain ⟨p, mem, rfl⟩ := List.mem_map.mp hn
    simp [Placed.power, (placeUplink_uplink r p (List.mem_filter.mp mem).1).2]
  have within := (placeDownlink_within r).power
  rw [deliveredGrants_eq, planPower_append]
  omega

/-! ## The completion -/

theorem exec_runCompletion {s : State} (idle : s.pulse.pending = false) :
    exec .runCompletion s = .next (finishRun s) := by
  show Host.Outcome.next (finishRun (finishPulse s)) = _
  rw [finishPulse_idle idle]

theorem planFits_iff (s : State) : planFits s = true ↔ s.link.queue.length < 32 := by
  simp [planFits, LinkPort.outboundFree, Config.outboundDepth]

theorem exec_runCompletion_completes {s : State} {r : Run} (idle : s.pulse.pending = false)
    (run : s.engine.run = some r) (room : s.link.queue.length < 32) :
    exec .runCompletion s = .next (completeRun r s) := by
  rw [exec_runCompletion idle]
  simp only [finishRun, run, (planFits_iff s).mpr room, if_true]

theorem completeRun_engine (r : Run) (s : State) :
    (completeRun r s).engine.carrySource = some r.target ∧
      (completeRun r s).engine.carryTiles = (deliveredGrants s r).flatMap Placed.spill := by
  simp [completeRun_eq, planQueued, handedOff, handFigures]

theorem completeRun_power (r : Run) (s : State) :
    (completeRun r s).power = { s.power with pPrev := planPower (deliveredGrants s r) } := by
  simp [completeRun_eq, planQueued, handedOff, handFigures, enterBatch]

theorem completeRun_edge (r : Run) (s : State) :
    (completeRun r s).edge =
      { s.edge with demand := edgeTiles (deliveredGrants s r), subBands := edgeBands (deliveredGrants s r) } := by
  simp [completeRun_eq, planQueued, handedOff, handFigures, enterBatch]

/-- The PLAN joins the queue, and only NOTICEs follow it. -/
theorem completeRun_queue (r : Run) (s : State) :
    ∃ notices : List Notice, (completeRun r s).link.queue =
      s.link.queue ++ .plan (planOf r (deliveredGrants s r)) :: notices.map OutRecord.notice := by
  obtain ⟨notices, queued⟩ := (completeRun_told r s).queued
  exact ⟨notices, by rw [queued]; simp [planQueued, LinkPort.enqueue]⟩

/-- Settles O39: the delivered grants, their plan and their entries, place by place. -/
theorem runCompletionDeliversPlan : Obligations.RunCompletionDeliversPlan := by
  intro s idle
  refine ⟨fun none => ?_, fun full => ?_, fun r run room => ?_⟩
  · rw [exec_runCompletion idle]
    simp only [finishRun, none]
  · have noRoom : planFits s = false :=
      Bool.eq_false_of_not_eq_true fun fits => Nat.not_lt.mpr full ((planFits_iff s).mp fits)
    rw [exec_runCompletion idle]
    unfold finishRun
    split <;> simp [noRoom]
  intro seen live delivered
  have same : delivered = deliveredGrants s r := by
    refine List.filter_congr fun p _ => ?_
    have found : seen p.context = r.snapshot.find p.context := rfl
    simp only [live, survives, found]
    cases h : r.snapshot.find p.context with
    | none => rfl
    | some c => simp only [isLive, Snapshot.find_index h]
  obtain ⟨notices, queue⟩ := completeRun_queue r s
  obtain ⟨dlCount, ulCount⟩ := planOf_counts s r
  have tracking := completeRun_tracking r s
  have split := deliveredGrants_eq s r
  have total : (deliveredGrants s r).length = (deliveredDl s r).length + (deliveredUl s r).length := by
    rw [split, List.length_append]
  have grants (n : Nat) : (planOf r (deliveredGrants s r)).grants[n]? =
      ((deliveredGrants s r)[n]?).map fun p => grantRecord r.snapshot p n := by
    simp only [planOf, List.getElem?_map, List.getElem?_zipIdx, Option.map_map, Nat.zero_add]
    rfl
  have length : (planOf r (deliveredGrants s r)).grants.length = (deliveredGrants s r).length := by simp [planOf]
  have entries (n : Nat) : (enteredGrants r s)[n]? =
      ((deliveredGrants s r)[n]?).map fun p => trackedGrant r.target s.config.window p n := by
    simp only [enteredGrants, List.getElem?_map, List.getElem?_zipIdx, Option.map_map, Nat.zero_add]
    rfl
  rw [same]
  refine ⟨completeRun r s, planOf r (deliveredGrants s r), enteredGrants r s, notices,
    exec_runCompletion_completes idle run room, completeRun_run r s, (completeRun_engine r s).1,
    completeRun_requestedFloor r s, queue, rfl, rfl, planPower_le s r, rfl, rfl, ?_, ?_, ?_, fun n hn => ?_,
    fun n low high => ?_, length, fun n x hx => ⟨?_, ?_⟩, enteredGrants_length r s, completeRun_power r s,
    by rw [tracking], by rw [tracking], by simp, by simp, by simp⟩
  · rw [dlCount]
    exact (List.length_filter_le _ _).trans (placeDownlink_length r)
  · rw [ulCount]
    exact (List.length_filter_le _ _).trans (placeUplink_length r)
  · rw [length, total, dlCount, ulCount]
  · rw [dlCount] at hn
    have found : (deliveredGrants s r)[n]? = some (deliveredDl s r)[n] := by
      rw [split, List.getElem?_append_left hn, List.getElem?_eq_getElem hn]
    rw [grants, found]
    exact congrArg some (deliveredDl_direction (List.getElem_mem hn))
  · rw [dlCount] at low
    rw [length, total] at high
    have inside : n - (deliveredDl s r).length < (deliveredUl s r).length := by omega
    have found : (deliveredGrants s r)[n]? = some (deliveredUl s r)[n - (deliveredDl s r).length] := by
      rw [split, List.getElem?_append_right low, List.getElem?_eq_getElem inside]
    rw [grants, found]
    exact congrArg some (deliveredUl_direction (List.getElem_mem inside))
  · rw [grants, hx]
    rfl
  · rw [entries, hx]
    rfl

/-! ## What a completion hands on -/

theorem getLsbD_bandSet (p : Placed) {b : Nat} (hb : b < 24) :
    p.bandSet.getLsbD b = (decide (p.firstBand ≤ b) && decide (b < p.firstBand + p.width)) := by
  have bands (w : Nat) : ((List.range w).foldl (fun u i => withBand u (p.firstBand + i)) 0#24).getLsbD b =
      (decide (p.firstBand ≤ b) && decide (b < p.firstBand + w)) := by
    induction w with
    | zero =>
      have none : ¬(p.firstBand ≤ b ∧ b < p.firstBand + 0) := by omega
      rw [← Bool.decide_and, decide_eq_false none]
      simp
    | succ w ih =>
      rw [List.range_succ, List.foldl_append, List.foldl_cons, List.foldl_nil, getLsbD_withBand _ _ hb, ih,
        Bool.eq_iff_iff]
      simp only [Bool.or_eq_true, Bool.and_eq_true, decide_eq_true_eq, beq_iff_eq]
      omega
  exact bands p.width

theorem getLsbD_foldl_bandSet (l : List Placed) (u : SubBands) {b : Nat} (hb : b < 24) :
    (l.foldl (fun u p => u ||| p.bandSet) u).getLsbD b =
      (u.getLsbD b || l.any fun p => decide (p.firstBand ≤ b) && decide (b < p.firstBand + p.width)) := by
  induction l generalizing u with
  | nil => simp
  | cons p l ih => rw [List.foldl_cons, ih, BitVec.getLsbD_or, getLsbD_bandSet p hb, List.any_cons, Bool.or_assoc]

/-- The sub-bands of the edge grants, counted. -/
theorem edgeBands_eq (l : List Placed) :
    edgeBands l = ((List.range 24).filter fun b =>
      (l.filter Placed.edge).any fun p => decide (p.firstBand ≤ b) && decide (b < p.firstBand + p.width)).length := by
  unfold edgeBands members
  refine congrArg List.length (List.filter_congr fun b hb => ?_)
  rw [getLsbD_foldl_bandSet _ _ (List.mem_range.mp hb)]
  simp [edgeGrants]

theorem frameDue_counter {c : Counter} (h : c ≠ .unsentFrames) (f : BusFrame) (s : State) :
    (frameDue f s).events.counter c = s.events.counter c := by
  unfold frameDue
  split
  · rw [counter_advance, if_neg h]
  · split <;> rfl

theorem completeRun_counters (r : Run) (s : State) :
    (completeRun r s).events.counter .grantsStruck =
        min 65535 (s.events.counter .grantsStruck + ((placedGrants r).length - (deliveredGrants s r).length)) ∧
      (completeRun r s).events.counter .unplaced =
        min 65535 (s.events.counter .unplaced + ((placeDownlink r).unplaced + (placeUplink r).unplaced)) := by
  have before (c : Counter) : (planQueued r s).events.counter c = s.events.counter c := by simp [planQueued]
  have struck : Counter.grantsStruck ≠ .unplaced := by decide
  rw [completeRun_eq]
  refine ⟨?_, ?_⟩
  · rw [counter_advance, if_neg struck, counter_advance, if_pos rfl, frameDue_counter (by decide), before]
    rfl
  · rw [counter_advance, if_pos rfl, counter_advance, if_neg struck.symm, frameDue_counter (by decide), before]
    rfl

/-- Where the snapshot holds each context once, it finds each by its index. -/
theorem find_of_mem {sn : Snapshot} (distinct : (sn.contexts.map SnapContext.index).Nodup) {c : SnapContext}
    (mem : c ∈ sn.contexts) : sn.find c.index = some c := by
  cases h : sn.find c.index with
  | none =>
    have none : ∀ d ∈ sn.contexts, ¬(d.index == c.index) = true := List.find?_eq_none.mp h
    exact absurd (beq_self_eq_true c.index) (none c mem)
  | some d =>
    rw [List.inj_on_of_nodup_map distinct (List.mem_of_find?_eq_some h) mem (Snapshot.find_index h)]

theorem any_and_eq {sn : Snapshot} (distinct : (sn.contexts.map SnapContext.index).Nodup) (test : SnapContext → Bool)
    (i : Index) : (sn.contexts.any fun c => c.index == i && test c) = (sn.find i).any test := by
  rw [Bool.eq_iff_iff, List.any_eq_true]
  constructor
  · rintro ⟨c, mem, both⟩
    obtain ⟨index, passes⟩ := Bool.and_eq_true_iff.mp both
    rw [← beq_iff_eq.mp index, find_of_mem distinct mem]
    exact passes
  · intro passes
    obtain ⟨c, found⟩ : ∃ c, sn.find i = some c := by
      cases h : sn.find i with
      | none => simp [h] at passes
      | some c => exact ⟨c, rfl⟩
    rw [found, Option.any_some] at passes
    exact ⟨c, List.mem_of_find?_eq_some found, by simp [Snapshot.find_index found, passes]⟩

theorem find?_filter_eq {sn : Snapshot} (distinct : (sn.contexts.map SnapContext.index).Nodup)
    (test : SnapContext → Bool) (i : Index) :
    ((sn.contexts.filter test).find? fun c => c.index == i) = (sn.find i).filter test := by
  cases h : (sn.contexts.filter test).find? fun c => c.index == i with
  | some c =>
    obtain ⟨mem, passes⟩ := List.mem_filter.mp (List.mem_of_find?_eq_some h)
    have index : c.index = i := by simpa using List.find?_some h
    rw [← index, find_of_mem distinct mem, Option.filter_some, if_pos passes]
  | none =>
    have none : ∀ c ∈ sn.contexts.filter test, ¬(c.index == i) = true := List.find?_eq_none.mp h
    cases found : sn.find i with
    | none => rfl
    | some c =>
      rw [Option.filter_some, if_neg]
      exact fun passes => none c (List.mem_filter.mpr ⟨List.mem_of_find?_eq_some found, passes⟩)
        (by simp [Snapshot.find_index found])

/-- The averages of a context after a completed run: of those ACTIVE in the snapshot and live (R55–R57). -/
theorem ctx_updateAverages (e : Epoch) (l : List Placed) {sn : Snapshot}
    (distinct : (sn.contexts.map SnapContext.index).Nodup) (s : State) (i : Index) :
    ctx (updateAverages e l sn s) i =
      if (sn.find i).any (fun c => c.state == .active && isLive s c) then
        (ctx s i).served e (freshFor l i .dl) (freshFor l i .ul)
      else ctx s i := by
  have once : ((sn.contexts.filter fun c => c.state == .active && isLive s c).map SnapContext.index).Nodup :=
    distinct.sublist (List.filter_sublist.map _)
  unfold updateAverages
  rw [ctx_foldl_served (fun c x => x.served e (freshFor l c.index .dl) (freshFor l c.index .ul)) _ once,
    find?_filter_eq distinct]
  cases h : sn.find i with
  | none => rfl
  | some c =>
    rw [Option.filter_some, Option.any_some, ← Snapshot.find_index h]
    by_cases passes : (c.state == .active && isLive s c) = true
    · simp only [if_pos passes]
    · simp only [if_neg passes]

/-- The contexts after a completion. -/
theorem ctx_completeRun_eq {r : Run} (distinct : (r.snapshot.contexts.map SnapContext.index).Nodup) (s : State)
    (i : Index) :
    ctx (completeRun r s) i =
      if (r.snapshot.find i).any (fun c => c.state == .active && isLive s c) then
        ((ctx s i).delivered (deliveredGrants s r) i).served r.target (freshFor (deliveredGrants s r) i .dl)
          (freshFor (deliveredGrants s r) i .ul)
      else (ctx s i).delivered (deliveredGrants s r) i := by
  have live (c : SnapContext) : isLive (deliveredState r s) c = isLive s c := by
    simp only [isLive, ctx_deliveredState]
    rfl
  rw [ctx_completeRun, handedOff_eq]
  refine (ctx_updateAverages _ _ distinct _ i).trans ?_
  simp only [live, ctx_deliveredState]

/-- Settles O40, by what a completion writes block by block. -/
theorem completionHandsOff : Obligations.CompletionHandsOff := by
  intro s r idle run room once
  have distinct := once r run
  intro live placed delivered mine fresh served averaged edge
  have isLive_index (i : Index) : live i = (r.snapshot.find i).any (isLive s) := by
    have test : live i = (r.snapshot.find i).any
        fun c => (ctx s i).state.attached && (ctx s i).attachNo == c.attachNo := by
      rw [← any_and_eq distinct]
      simp only [live, Bool.and_assoc]
    rw [test]
    cases h : r.snapshot.find i with
    | none => rfl
    | some c => simp only [Option.any_some, isLive, Snapshot.find_index h]
  have same : delivered = deliveredGrants s r := by
    refine List.filter_congr fun p _ => ?_
    rw [isLive_index, survives]
    cases r.snapshot.find p.context <;> rfl
  have mine_eq (i : Index) : mine i = grantsFor (deliveredGrants s r) i := by rw [← same]; rfl
  have fresh_eq (i : Index) (d : Direction) : fresh i d = freshFor (deliveredGrants s r) i d := by
    simp only [fresh, mine_eq, grantsFor, freshFor, List.filter_filter]
    refine List.filter_congr fun p _ => ?_
    rw [Bool.and_right_comm]
  have served_eq (i : Index) (d : Direction) : served i d = chargedBytes (deliveredGrants s r) i d := by
    simp only [served, fresh_eq]
    rfl
  have averaged_eq (i : Index) :
      averaged i = (r.snapshot.find i).any fun c => c.state == .active && isLive s c := by
    simp only [averaged, isLive_index, any_and_eq distinct]
    cases r.snapshot.find i <;> rfl
  refine ⟨completeRun r s, exec_runCompletion_completes idle run room, fun i => ?_, ?_, ?_, ?_, ?_, ?_⟩
  · rw [ctx_completeRun_eq distinct]
    simp only [averaged_eq, mine_eq, served_eq, fresh_eq]
    by_cases av : ((r.snapshot.find i).any fun c => c.state == .active && isLive s c) = true
    · simp only [av, if_true, Bool.true_and, Context.served, servedAt]
      by_cases dl : (freshFor (deliveredGrants s r) i .dl).isEmpty = true <;>
        by_cases ul : (freshFor (deliveredGrants s r) i .ul).isEmpty = true <;> simp only [dl, ul] <;> rfl
    · simp only [av]
      rfl
  · rw [completeRun_tracking, same]
    refine List.filter_congr fun e _ => congrArg (!·) ?_
    rw [Bool.eq_iff_iff]
    simp only [consumedTags, List.contains_iff_mem, List.mem_map, List.mem_filterMap, List.any_eq_true,
      Option.any_eq_true, beq_iff_eq]
    exact ⟨fun ⟨x, ⟨p, mem, redo⟩, origin⟩ => ⟨p, mem, x, redo, origin⟩,
      fun ⟨p, mem, x, redo, origin⟩ => ⟨x, ⟨p, mem, redo⟩, origin⟩⟩
  · rw [completeRun_edge, edgeBands_eq, ← same]
    rfl
  · rw [(completeRun_engine r s).2, same]
  · rw [(completeRun_counters r s).1, same]
    rfl
  · exact (completeRun_counters r s).2

end Sys2Proof.Machine
end


section
/-!
PROOFS. The void of a batch, the expiry of grants and the removal of redo entries past their deadline (R90, R91, R96,
R101).
-/
namespace Sys2Proof.Machine

open Sys2Proof

/-! ## A context that loses grants -/

/-- A context after `k` of its grants are gone: a CLOSING one that reaches 0 is FREE (R20). -/
def Context.losing (k : Nat) (c : Context) : Context :=
  if c.state = .closing ∧ k ≠ 0 ∧ c.outstanding ≤ k then c.freed else { c with outstanding := c.outstanding - k }

theorem Context.losing_zero (c : Context) : c.losing 0 = c := by simp [Context.losing]

theorem Context.losing_one (c : Context) :
    c.losing 1 =
      if c.state = .closing ∧ c.outstanding - 1 = 0 then c.freed else { c with outstanding := c.outstanding - 1 } := by
  have same : (c.state = .closing ∧ 1 ≠ 0 ∧ c.outstanding ≤ 1) ↔ (c.state = .closing ∧ c.outstanding - 1 = 0) :=
    and_congr_right fun _ => by omega
  simp only [Context.losing, same]

theorem Context.freed_losing (c : Context) (k : Nat) : c.freed.losing k = c.freed := by
  simp [Context.losing, Context.freed, Context.reset]

theorem Context.losing_add (a b : Nat) (c : Context) : (c.losing a).losing b = c.losing (a + b) := by
  by_cases first : c.state = .closing ∧ a ≠ 0 ∧ c.outstanding ≤ a
  · have both : c.state = .closing ∧ a + b ≠ 0 ∧ c.outstanding ≤ a + b := ⟨first.1, by omega, by omega⟩
    have gone : c.losing a = c.freed := if_pos first
    rw [gone, freed_losing, losing, if_pos both]
  · have left : c.losing a = { c with outstanding := c.outstanding - a } := if_neg first
    have same : (c.state = .closing ∧ b ≠ 0 ∧ c.outstanding - a ≤ b) ↔
        (c.state = .closing ∧ a + b ≠ 0 ∧ c.outstanding ≤ a + b) := and_congr_right fun closing => by
      have stays : ¬(a ≠ 0 ∧ c.outstanding ≤ a) := fun h => first ⟨closing, h⟩
      omega
    rw [left]
    simp only [losing, same, Nat.sub_sub]
    rfl

theorem ctx_dropOutstanding_losing (i j : Index) (s : State) :
    ctx (dropOutstanding i s) j = if j = i then (ctx s i).losing 1 else ctx s j := by
  rw [ctx_dropOutstanding, Context.losing_one]

/-! ## A context whose new data is refunded -/

/-- A context after bytes of new data are refunded in each direction (R18, R31). -/
def Context.refunded (dl ul : Nat) (c : Context) : Context :=
  if c.state = .closing ∨ c.state = .free then c
  else { c with dlBacklog := min 1048575 (c.dlBacklog + dl), ulBacklog := min 1048575 (c.ulBacklog + ul) }

/-- The bytes of new data among grants, in a direction. -/
def freshBytes (l : List OgtEntry) (d : Direction) : Nat :=
  ((l.filter fun g => g.origin.isNone && g.direction == d).map OgtEntry.bytes).sum

theorem Context.afterVoid_eq (gone : List OgtEntry) (i : Index) (c : Context) :
    c.afterVoid gone i =
      (c.refunded (freshBytes (gone.filter fun g => g.context == i) .dl)
        (freshBytes (gone.filter fun g => g.context == i) .ul)).losing (gone.filter fun g => g.context == i).length := by
  have some_mine : (gone.filter fun g => g.context == i) ≠ [] ↔ (gone.filter fun g => g.context == i).length ≠ 0 := by
    simp
  simp only [Context.afterVoid, some_mine]
  by_cases closing : c.state = .closing
  · simp only [Context.refunded, closing, true_or, if_true, Context.losing, true_and, Context.freed]
  · by_cases free : c.state = .free <;>
      simp only [Context.refunded, closing, free, or_true, false_or, if_true, if_false, Context.losing, false_and] <;> rfl

theorem Context.refunded_losing (dl ul k : Nat) (c : Context) :
    (c.refunded dl ul).losing k = (c.losing k).refunded dl ul := by
  by_cases closing : c.state = .closing
  · by_cases last : k ≠ 0 ∧ c.outstanding ≤ k
    · simp [refunded, losing, closing, last, Context.freed, Context.reset]
    · simp [refunded, losing, closing, last]
  · by_cases free : c.state = .free <;> simp [refunded, losing, closing, free]

theorem Context.refunded_add (a b x y : Nat) (c : Context) :
    (c.refunded a b).refunded x y = c.refunded (a + x) (b + y) := by
  by_cases out : c.state = .closing ∨ c.state = .free
  · simp [refunded, out]
  · have dl : min 1048575 (min 1048575 (c.dlBacklog + a) + x) = min 1048575 (c.dlBacklog + (a + x)) := by omega
    have ul : min 1048575 (min 1048575 (c.ulBacklog + b) + y) = min 1048575 (c.ulBacklog + (b + y)) := by omega
    simp [refunded, out, dl, ul]

/-- The backlogs of a context within their range (R28). -/
def Context.BacklogsBounded (c : Context) : Prop := c.dlBacklog ≤ 1048575 ∧ c.ulBacklog ≤ 1048575

theorem Context.BacklogsBounded.refunded {c : Context} (h : c.BacklogsBounded) (dl ul : Nat) :
    (c.refunded dl ul).BacklogsBounded := by
  unfold Context.refunded
  split
  · exact h
  · exact ⟨Nat.min_le_left _ _, Nat.min_le_left _ _⟩

theorem Context.BacklogsBounded.losing {c : Context} (h : c.BacklogsBounded) (k : Nat) : (c.losing k).BacklogsBounded := by
  unfold Context.losing
  split
  · exact ⟨Nat.zero_le _, Nat.zero_le _⟩
  · exact h

theorem Context.BacklogsBounded.refunded_zero {c : Context} (h : c.BacklogsBounded) : c.refunded 0 0 = c := by
  unfold Context.refunded
  split
  · rfl
  · simp [Nat.min_eq_right h.1, Nat.min_eq_right h.2]

theorem Context.BacklogsBounded.afterVoid {c : Context} (h : c.BacklogsBounded) (gone : List OgtEntry) (i : Index) :
    (c.afterVoid gone i).BacklogsBounded := by
  rw [Context.afterVoid_eq]
  exact (h.refunded _ _).losing _

theorem Context.afterVoid_append (a b : List OgtEntry) (i : Index) (c : Context) :
    (c.afterVoid a i).afterVoid b i = c.afterVoid (a ++ b) i := by
  have bytes (d : Direction) (l m : List OgtEntry) : freshBytes (l ++ m) d = freshBytes l d + freshBytes m d := by
    simp [freshBytes]
  simp only [Context.afterVoid_eq, List.filter_append, bytes, List.length_append]
  simp only [Context.refunded_losing, Context.losing_add, Context.refunded_add]

theorem Context.afterVoid_nil {c : Context} (h : c.BacklogsBounded) (i : Index) : c.afterVoid [] i = c := by
  rw [Context.afterVoid_eq]
  exact (congrArg (Context.losing 0) h.refunded_zero).trans c.losing_zero

/-- The grants of other contexts are no matter of a context. -/
theorem Context.afterVoid_other {c : Context} (h : c.BacklogsBounded) {g : OgtEntry} {i : Index} (other : i ≠ g.context) :
    c.afterVoid [g] i = c := by
  have none : ([g].filter fun g => g.context == i) = [] := by simp [other.symm]
  rw [Context.afterVoid_eq, none]
  exact (congrArg (Context.losing 0) h.refunded_zero).trans c.losing_zero

/-- The order in which grants are void is no matter of a context. -/
theorem Context.afterVoid_perm {a b : List OgtEntry} (h : a.Perm b) (i : Index) (c : Context) :
    c.afterVoid a i = c.afterVoid b i := by
  have mine := h.filter fun g => g.context == i
  have bytes (d : Direction) :
      freshBytes (a.filter fun g => g.context == i) d = freshBytes (b.filter fun g => g.context == i) d :=
    ((mine.filter _).map _).sum_eq
  rw [Context.afterVoid_eq, Context.afterVoid_eq, bytes, bytes, mine.length_eq]

/-! ## One void grant -/

theorem ctx_refund (i j : Index) (d : Direction) (n : Nat) (s : State) (h : (ctx s i).BacklogsBounded) :
    ctx (refund i d n s) j =
      if j = i then (ctx s i).refunded (if d = .dl then n else 0) (if d = .ul then n else 0) else ctx s j := by
  obtain ⟨dl, ul⟩ := h
  by_cases attached : (ctx s i).state.attached = true
  · have taken : ¬((ctx s i).state = .closing ∨ (ctx s i).state = .free) := by
      rintro (out | out) <;> rw [out] at attached <;> cases attached
    have written : (ctx s i).refunded (if d = .dl then n else 0) (if d = .ul then n else 0) =
        (ctx s i).withBacklog d (min 1048575 ((ctx s i).backlog d + n)) := by
      cases d <;> simp [Context.refunded, taken, Context.withBacklog, Context.backlog, Nat.min_eq_right dl,
        Nat.min_eq_right ul]
    rw [written, refund_attached d n attached]
    split
    · next above =>
      rw [Nat.min_eq_left above.le]
      exact (ctx_congr (setEvent_keeps ..).2.1 j).trans (ctx_setCtx i j _ s)
    · next below => rw [Nat.min_eq_right (Nat.not_lt.mp below), ctx_setCtx]
  · have out : (ctx s i).state = .closing ∨ (ctx s i).state = .free := by
      cases h : (ctx s i).state <;> simp [h, ContextState.attached] at attached ⊢
    rw [refund_unattached d n (by simpa using attached)]
    by_cases same : j = i <;> simp [same, Context.refunded, out]

/-- A void grant handed back: its entry gone, new data refunded or a redo grant returned (R90). -/
def handedBack (n : Epoch) (s : State) (g : OgtEntry) : State :=
  match g.origin with
  | some o => returnGrant n g o (removeGrant g.tag s)
  | none => refund g.context g.direction g.bytes (removeGrant g.tag s)

theorem voidEntry_eq (n : Epoch) (s : State) (g : OgtEntry) :
    voidEntry n s g = dropOutstanding g.context (handedBack n s g) := rfl

theorem ctx_handedBack (n : Epoch) (g : OgtEntry) {s : State} (h : (ctx s g.context).BacklogsBounded) (i : Index) :
    ctx (handedBack n s g) i =
      if i = g.context then (ctx s i).refunded (freshBytes [g] .dl) (freshBytes [g] .ul) else ctx s i := by
  have bytes (d : Direction) : freshBytes [g] d = if g.origin = none ∧ g.direction = d then g.bytes else 0 := by
    by_cases fresh : g.origin = none <;> by_cases dir : g.direction = d <;> simp [freshBytes, fresh, dir]
  unfold handedBack
  split
  · next o origin =>
    have none (d : Direction) : freshBytes [g] d = 0 := by simp [bytes, origin]
    rw [none, none, ctx_congr (s := s) (by simp)]
    split
    · next same => rw [same, h.refunded_zero]
    · rfl
  · next origin =>
    have entry (j : Index) : ctx (removeGrant g.tag s) j = ctx s j := rfl
    rw [ctx_refund g.context i g.direction g.bytes (removeGrant g.tag s) h, bytes, bytes]
    split
    · next same => simp only [same, entry, origin, true_and]
    · rfl

theorem ctx_voidEntry (n : Epoch) (g : OgtEntry) {s : State} (h : ∀ j, (ctx s j).BacklogsBounded) (i : Index) :
    ctx (voidEntry n s g) i = (ctx s i).afterVoid [g] i := by
  rw [voidEntry_eq, ctx_dropOutstanding_losing, ctx_handedBack n g (h _), ctx_handedBack n g (h _), if_pos rfl]
  by_cases same : i = g.context
  · have mine : ([g].filter fun x => x.context == i) = [g] := by simp [same]
    rw [if_pos same, Context.afterVoid_eq, mine, same]
    rfl
  · rw [if_neg same, if_neg same, Context.afterVoid_other (h i) same]

/-! ## Void grants one after another -/

/-- A state after the void of some grants, their redo deadlines compared with an epoch: the contexts, the Redo List, and
what the next void needs to know of them. -/
structure Voids (n : Epoch) (gone : List OgtEntry) (s t : State) : Prop where
  contexts : (∀ j, (ctx s j).BacklogsBounded) → ∀ i, ctx t i = (ctx s i).afterVoid gone i
  opens : ∀ i, (ctx s i).state ≠ .closing → (ctx t i).state ≠ .closing
  redo : s.RedoReturned n gone t.tracking.redo
  length : t.tracking.redo.length ≤ s.tracking.redo.length + gone.length

theorem Voids.of_same {n : Epoch} {s t : State} (contexts : t.contexts = s.contexts)
    (redo : t.tracking.redo = s.tracking.redo) : Voids n [] s t where
  contexts h i := by rw [ctx_congr contexts, Context.afterVoid_nil (h i)]
  opens i h := by rwa [ctx_congr contexts]
  redo := by
    rw [redo]
    exact ⟨List.Sublist.refl _, fun e h => .inl h, fun g h => absurd h List.not_mem_nil⟩
  length := by rw [redo]; exact Nat.le_add_right _ _

theorem Voids.trans {n : Epoch} {a b : List OgtEntry} {s t u : State} (h : Voids n a s t) (g : Voids n b t u) :
    Voids n (a ++ b) s u where
  contexts bounded i := by
    have next (j : Index) : (ctx t j).BacklogsBounded := by
      rw [h.contexts bounded j]
      exact (bounded j).afterVoid a j
    rw [g.contexts next i, h.contexts bounded i, Context.afterVoid_append]
  opens i := g.opens i ∘ h.opens i
  redo := by
    obtain ⟨sub, new, all⟩ := h.redo
    obtain ⟨sub', new', all'⟩ := g.redo
    refine ⟨sub.trans sub', fun e he => ?_, fun x hx o origin opened early room => ?_⟩
    · rcases new' e he with he | ⟨x, hx, rest⟩
      · rcases new e he with he | ⟨x, hx, rest⟩
        · exact .inl he
        · exact .inr ⟨x, List.mem_append_left _ hx, rest⟩
      · exact .inr ⟨x, List.mem_append_right _ hx, rest⟩
    · rw [List.length_append] at room
      rcases List.mem_append.mp hx with hx | hx
      · obtain ⟨e, he, tag⟩ := all x hx o origin opened early (by omega)
        exact ⟨e, sub'.subset he, tag⟩
      · have length := h.length
        exact all' x hx o origin (h.opens _ opened) early (by omega)
  length := by
    have := h.length
    have := g.length
    rw [List.length_append]
    omega

theorem earlier_iff_not_lt (a b : Epoch) : earlier a b = true ↔ ¬(a - b).val < 513 := by
  simp only [earlier, decide_eq_true_eq]
  omega

/-- The Redo List after one void grant. -/
theorem handedBack_redo (n : Epoch) (s : State) (g : OgtEntry) :
    s.RedoReturned n [g] (handedBack n s g).tracking.redo ∧
      (handedBack n s g).tracking.redo.length ≤ s.tracking.redo.length + 1 := by
  have kept {l : List RedoEntry} (same : l = s.tracking.redo)
      (none : ∀ o, g.origin = some o → (ctx s g.context).state ≠ .closing → (o.deadline - n).val < 513 →
        s.tracking.redo.length + 1 ≤ 48 → False) :
      s.RedoReturned n [g] l ∧ l.length ≤ s.tracking.redo.length + 1 := by
    rw [same]
    refine ⟨⟨List.Sublist.refl _, fun e he => .inl he, fun x hx o origin opened early room => ?_⟩, Nat.le_succ _⟩
    rw [List.mem_singleton.mp hx] at origin opened
    exact (none o origin opened early room).elim
  unfold handedBack
  split
  · next o origin =>
    unfold returnGrant
    split
    · next closing => exact kept (by simp; rfl) fun _ _ opened _ _ => opened closing
    · split
      · next late =>
        refine kept (by simp; rfl) fun o' same _ early _ => (earlier_iff_not_lt _ _).mp late ?_
        rw [origin, Option.some.injEq] at same
        rwa [same]
      · next onTime =>
        split
        · next full =>
          refine kept (by simp; rfl) fun _ _ _ _ room => ?_
          have held : 48 ≤ s.tracking.redo.length := of_decide_eq_true full
          omega
        · rw [addRedo_tracking]
          refine ⟨⟨insertRedo_sublist _ _, fun e he => ?_, fun x hx o' same opened early room => ?_⟩, ?_⟩
          · rcases List.mem_cons.mp ((insertRedo_perm _ _).mem_iff.mp he) with rfl | he
            · refine .inr ⟨g, List.mem_singleton.mpr rfl, o, origin, ?_, rfl⟩
              by_contra late
              exact onTime ((earlier_iff_not_lt _ _).mpr late)
            · exact .inl he
          · rw [List.mem_singleton.mp hx, origin, Option.some.injEq] at same
            exact ⟨_, (insertRedo_perm _ _).mem_iff.mpr List.mem_cons_self, by rw [← same]⟩
          · exact (insertRedo_length _ _).le
  · next origin => exact kept (by simp; rfl) fun o same => by rw [origin] at same; cases same

theorem handedBack_state (n : Epoch) (s : State) (g : OgtEntry) (i : Index) :
    (ctx (handedBack n s g) i).state = (ctx s i).state := by
  unfold handedBack
  split
  · rw [ctx_congr (s := s) (by simp)]
  · exact (ctx_refund_counts ..).2

theorem dropOutstanding_opens {s : State} {i : Index} (j : Index) (h : (ctx s i).state ≠ .closing) :
    (ctx (dropOutstanding j s) i).state ≠ .closing := by
  rw [ctx_dropOutstanding_losing]
  split
  · next same =>
    rw [← same, Context.losing, if_neg fun closing => h closing.1]
    exact h
  · exact h

theorem voidEntry_voids (n : Epoch) (s : State) (g : OgtEntry) : Voids n [g] s (voidEntry n s g) where
  contexts h i := ctx_voidEntry n g h i
  opens i opened := by
    rw [voidEntry_eq]
    exact dropOutstanding_opens _ (by rwa [handedBack_state])
  redo := by
    rw [voidEntry_eq, dropOutstanding_tracking]
    exact (handedBack_redo n s g).1
  length := by
    rw [voidEntry_eq, dropOutstanding_tracking]
    exact (handedBack_redo n s g).2

theorem foldl_voidEntry_voids (n : Epoch) (l : List OgtEntry) (s : State) : Voids n l s (l.foldl (voidEntry n) s) := by
  induction l generalizing s with
  | nil => exact .of_same rfl rfl
  | cons g l ih => exact (voidEntry_voids n s g).trans (ih _)

/-- The OGT entries of a batch. -/
def State.batch (s : State) (e : Epoch) : List OgtEntry := s.tracking.ogt.filter fun g => g.tag.epoch == e

theorem voidBatch_voids (n e : Epoch) (s : State) : Voids n (s.batch e) s (voidBatch n e s) := by
  have voids := foldl_voidEntry_voids n (s.batch e) s
  have reported : Voids n [] ((s.batch e).foldl (voidEntry n) s) (voidBatch n e s) := by
    refine .of_same ?_ ?_ <;> simp [voidBatch, setBatch] <;> rfl
  simpa using voids.trans reported

theorem State.FiguresBounded.backlogs {s : State} (h : s.FiguresBounded) (i : Index) : (ctx s i).BacklogsBounded :=
  ⟨(h i).1, (h i).2.1⟩

theorem now_of_epoch {n : Epoch} {s : State} (h : s.align.epoch = some n) : now s = n := by simp [now, h]

theorem tracks_of {s : State} (h : s.align.opState = .operating ∨ s.align.opState = .holding) : tracks s = true := by
  rcases h with h | h <;> simp [tracks, h]

end Sys2Proof.Machine
end


section
/-!
PROOFS. What operations report: the flags they may set, the counters they may advance, the NOTICEs they may queue.
-/
namespace Sys2Proof.Machine

open Sys2Proof

/-! ## Reports within bounds -/

/-- Only the events `ks` are set and only the counters `cs` advance; no record but a PLAN leaves the outbound queue, no
PLAN joins it, and the inbound side of the link stays as it is. -/
structure Says (ks : List EventKind) (cs : List Counter) (s t : State) : Prop where
  flags : ∀ k, k ∉ ks → t.events.flag k = s.events.flag k
  kept : ∀ k, s.events.flag k = true → t.events.flag k = true
  counters : ∀ c, c ∉ cs → t.events.counter c = s.events.counter c
  grown : ∀ c, min 65535 (s.events.counter c) ≤ t.events.counter c
  remainder : .bytesLost ∉ cs → t.events.remainder = s.events.remainder
  enables : t.events.enables = s.events.enables
  records : ∀ r ∈ s.link.queue, r.isPlan = false → r ∈ t.link.queue
  plans : ∀ p, OutRecord.plan p ∈ t.link.queue → OutRecord.plan p ∈ s.link.queue
  inbound : t.link.fifo = s.link.fifo ∧ t.link.ready = s.link.ready ∧ t.link.lost = s.link.lost

/-- The same, with at most `m` NOTICEs of the events `ks` queued behind what the queue holds, the rest of the link kept. -/
structure Tells (ks : List EventKind) (cs : List Counter) (m : Nat) (s t : State) : Prop where
  within : Says ks cs s t
  link : t.link = { s.link with queue := t.link.queue }
  queued : ∃ ns : List Notice, t.link.queue = s.link.queue ++ ns.map OutRecord.notice ∧ ns.length ≤ m ∧
    ∀ n ∈ ns, n.event ∈ ks ∧ s.events.enabled n.event = true

section Relations

variable {ks ks' : List EventKind} {cs cs' : List Counter} {m m' : Nat} {s t u : State}

theorem Says.of_same (events : t.events = s.events) (link : t.link = s.link) : Says ks cs s t where
  flags k _ := by rw [events]
  kept k h := by rwa [events]
  counters c _ := by rw [events]
  grown c := by rw [events]; exact Nat.min_le_right _ _
  remainder _ := by rw [events]
  enables := by rw [events]
  records r h _ := by rwa [link]
  plans p h := by rwa [link] at h
  inbound := by rw [link]; exact ⟨rfl, rfl, rfl⟩

theorem Says.refl (s : State) : Says ks cs s s := .of_same rfl rfl

theorem Says.trans (h : Says ks cs s t) (g : Says ks cs t u) : Says ks cs s u where
  flags k hk := (g.flags k hk).trans (h.flags k hk)
  kept k := g.kept k ∘ h.kept k
  counters c hc := (g.counters c hc).trans (h.counters c hc)
  grown c := by
    have := h.grown c
    have := g.grown c
    omega
  remainder hc := (g.remainder hc).trans (h.remainder hc)
  enables := g.enables.trans h.enables
  records r hr plan := g.records r (h.records r hr plan) plan
  plans p := h.plans p ∘ g.plans p
  inbound := by
    obtain ⟨fifo, ready, lost⟩ := h.inbound
    obtain ⟨fifo', ready', lost'⟩ := g.inbound
    exact ⟨fifo'.trans fifo, ready'.trans ready, lost'.trans lost⟩

theorem Says.mono (h : Says ks cs s t) (hk : ks ⊆ ks') (hc : cs ⊆ cs') : Says ks' cs' s t where
  flags k no := h.flags k fun mem => no (hk mem)
  kept := h.kept
  counters c no := h.counters c fun mem => no (hc mem)
  grown := h.grown
  remainder no := h.remainder fun mem => no (hc mem)
  enables := h.enables
  records := h.records
  plans := h.plans
  inbound := h.inbound

theorem Says.enabled (h : Says ks cs s t) (k : EventKind) : t.events.enabled k = s.events.enabled k := by
  rw [EventUnit.enabled, EventUnit.enabled, h.enables]

theorem Tells.of_same (events : t.events = s.events) (link : t.link = s.link) : Tells ks cs m s t :=
  ⟨.of_same events link, by rw [link], [], by simp [link], Nat.zero_le m,
    fun _ h => absurd h List.not_mem_nil⟩

theorem Tells.refl (s : State) : Tells ks cs m s s := .of_same rfl rfl

theorem Tells.trans (h : Tells ks cs m s t) (g : Tells ks cs m' t u) : Tells ks cs (m + m') s u where
  within := h.within.trans g.within
  link := by rw [g.link, h.link]
  queued := by
    obtain ⟨ns, hq, hm, hn⟩ := h.queued
    obtain ⟨ns', hq', hm', hn'⟩ := g.queued
    refine ⟨ns ++ ns', by rw [hq', hq]; simp, by rw [List.length_append]; omega, fun n mem => ?_⟩
    rcases List.mem_append.mp mem with mem | mem
    · exact hn n mem
    · obtain ⟨kind, enabled⟩ := hn' n mem
      exact ⟨kind, h.within.enabled _ ▸ enabled⟩

theorem Tells.mono (h : Tells ks cs m s t) (hk : ks ⊆ ks') (hc : cs ⊆ cs') (hm : m ≤ m') : Tells ks' cs' m' s t where
  within := h.within.mono hk hc
  link := h.link
  queued := by
    obtain ⟨ns, hq, bound, hn⟩ := h.queued
    exact ⟨ns, hq, bound.trans hm, fun n mem => ⟨hk (hn n mem).1, (hn n mem).2⟩⟩

/-- A change that reports nothing, and then reports. -/
theorem Tells.after (h : Tells ks cs m t u) (events : t.events = s.events) (link : t.link = s.link) :
    Tells ks cs m s u := by
  have whole := (Tells.of_same (ks := ks) (cs := cs) (m := 0) events link).trans h
  rwa [Nat.zero_add] at whole

/-- The length of the queue after reports. -/
theorem Tells.length (h : Tells ks cs m s t) : t.link.queue.length ≤ s.link.queue.length + m := by
  obtain ⟨ns, hq, bound, -⟩ := h.queued
  rw [hq, List.length_append, List.length_map]
  omega

/-- With none of the events enabled no NOTICE is queued. -/
theorem Tells.silent (h : Tells ks cs m s t) (off : ∀ k ∈ ks, s.events.enabled k = false) :
    t.link.queue = s.link.queue := by
  obtain ⟨ns, hq, -, hn⟩ := h.queued
  have none : ns = [] := List.eq_nil_iff_forall_not_mem.mpr fun n mem => by
    obtain ⟨kind, enabled⟩ := hn n mem
    rw [off _ kind] at enabled
    cases enabled
  rw [hq, none]
  simp

/-- Operations taken one after another. -/
theorem Says.foldl {α : Type} {f : State → α → State} (l : List α) (h : ∀ s, ∀ a ∈ l, Says ks cs s (f s a)) (s : State) :
    Says ks cs s (l.foldl f s) :=
  List.foldlRecOn (motive := fun t => Says ks cs s t) l f (.refl s) fun t ht a ha => ht.trans (h t a ha)

theorem Tells.foldl {α : Type} {f : State → α → State} (h : ∀ s a, Tells ks cs m s (f s a)) (l : List α) (s : State) :
    Tells ks cs (m * l.length) s (l.foldl f s) := by
  induction l generalizing s with
  | nil => exact .refl s
  | cons a l ih =>
    refine ((h s a).trans (ih _)).mono (List.Subset.refl _) (List.Subset.refl _) ?_
    rw [List.length_cons, Nat.mul_add]
    omega

end Relations

/-! ## The operations -/

theorem setEvent_tells (k : EventKind) (n : Nat) (c : Code) (s : State) : Tells [k] [] 1 s (setEvent k n c s) where
  within :=
    { flags := fun j hj => by
        have other : j ≠ k := fun same => hj (List.mem_singleton.mpr same)
        rw [flag_setEvent, decide_eq_false other, Bool.or_false]
      kept := fun j hj => by rw [flag_setEvent, hj, Bool.true_or]
      counters := fun _ _ => rfl
      grown := fun c => Nat.min_le_right _ _
      remainder := fun _ => rfl
      enables := rfl
      records := fun r hr _ => by
        rw [setEvent_link]
        split
        · exact List.mem_append_left _ hr
        · exact hr
      plans := fun p hp => by
        rw [setEvent_link] at hp
        split at hp
        · simpa using hp
        · exact hp
      inbound := by
        rw [setEvent_link]
        split <;> exact ⟨rfl, rfl, rfl⟩ }
  link := by
    rw [setEvent_link]
    split <;> rfl
  queued := by
    rw [setEvent_link]
    split
    · next on => exact ⟨[_], rfl, Nat.le_refl 1, fun n mem => by rw [List.mem_singleton.mp mem]; simp [on.1]⟩
    · exact ⟨[], by simp, Nat.zero_le 1, fun _ h => absurd h List.not_mem_nil⟩

/-- A NOTICE finds room while 23 records or fewer wait (R163). -/
theorem setEvent_queue {k : EventKind} {s : State} (n : Nat) (c : Code) (on : s.events.enabled k = true)
    (room : s.link.queue.length < 24) :
    (setEvent k n c s).link.queue =
      s.link.queue ++ [.notice { event := k, subject := n, code := c, epoch := s.align.epoch }] := by
  rw [setEvent_link, if_pos ⟨on, by omega⟩]

theorem advance_tells (c : Counter) (n : Nat) (s : State) : Tells [.counterHalf] [c] 1 s (advance c n s) := by
  have counted : Says [.counterHalf] [c] s { s with events := s.events.advanced c n } :=
    { flags := fun _ _ => rfl
      kept := fun _ h => h
      counters := fun d hd => by
        rw [List.mem_singleton] at hd
        exact (counter_advanced _ _ _ _).trans (if_neg hd)
      grown := fun d => by
        have := counter_advanced s.events c d n
        simp only [this, Config.counterMax]
        split
        · next same => subst same; omega
        · exact Nat.min_le_right _ _
      remainder := fun _ => rfl
      enables := rfl
      records := fun _ h _ => h
      plans := fun _ h => h
      inbound := ⟨rfl, rfl, rfl⟩ }
  have start : Tells [.counterHalf] [c] 0 s { s with events := s.events.advanced c n } :=
    ⟨counted, rfl, [], by simp, Nat.le_refl 0, fun _ h => absurd h List.not_mem_nil⟩
  rw [advance_eq]
  split
  · exact (start.trans ((setEvent_tells _ _ _ _).mono (List.Subset.refl _) (List.nil_subset _) (Nat.le_refl 1)))
  · exact start.mono (List.Subset.refl _) (List.Subset.refl _) (Nat.zero_le 1)

theorem loseBytes_tells (n : Nat) (s : State) : Tells [.counterHalf] [.bytesLost] 1 s (loseBytes n s) := by
  have start : Tells [.counterHalf] [.bytesLost] 0 s
      { s with events := { s.events with remainder := (s.events.remainder + n) % Config.lostUnit } } :=
    ⟨{ flags := fun _ _ => rfl
       kept := fun _ h => h
       counters := fun _ _ => rfl
       grown := fun _ => Nat.min_le_right _ _
       remainder := fun h => absurd (List.mem_singleton.mpr rfl) h
       enables := rfl
       records := fun _ h _ => h
       plans := fun _ h => h
       inbound := ⟨rfl, rfl, rfl⟩ }, rfl, [], by simp, Nat.le_refl 0, fun _ h => absurd h List.not_mem_nil⟩
  exact start.trans (advance_tells _ _ _)

/-- What the decision on one grant of the Redo List may report (R91, R95). -/
def redoKinds : List EventKind := [.redoDrop, .redoOverflow, .redoNearFull, .counterHalf]

/-- The counters that it may advance. -/
def redoCounters : List Counter := [.redoDrops, .bytesLost]

theorem dropGrant_tells {k : EventKind} (hk : k ∈ redoKinds) (c : Code) (i : Index) (n : Nat) (s : State) :
    Tells redoKinds redoCounters 3 s (dropGrant k c i n s) := by
  have set := (setEvent_tells k i.val c s).mono (ks' := redoKinds) (cs' := redoCounters) (by simpa using hk)
    (by decide) (Nat.le_refl 1)
  have counted := (advance_tells .redoDrops 1 (setEvent k i.val c s)).mono (ks' := redoKinds) (cs' := redoCounters)
    (by decide) (by decide) (Nat.le_refl 1)
  have lost := (loseBytes_tells n (advance .redoDrops 1 (setEvent k i.val c s))).mono (ks' := redoKinds)
    (cs' := redoCounters) (by decide) (by decide) (Nat.le_refl 1)
  exact (set.trans counted).trans lost

theorem addRedo_tells (e : RedoEntry) (s : State) : Tells redoKinds redoCounters 3 s (addRedo e s) := by
  unfold addRedo
  dsimp only
  split
  · have set (n : Nat) (t : State) := (setEvent_tells .redoNearFull n .none t).mono (ks' := redoKinds)
      (cs' := redoCounters) (m' := 3) (by decide) (by decide) (by decide)
    exact (set _ _).after rfl rfl
  · exact .of_same rfl rfl

theorem returnGrant_tells (n : Epoch) (g : OgtEntry) (o : RedoOrigin) (s : State) :
    Tells redoKinds redoCounters 3 s (returnGrant n g o s) := by
  unfold returnGrant
  split
  · exact (loseBytes_tells _ _).mono (by decide) (by decide) (by decide)
  · split
    · exact dropGrant_tells (by decide) _ _ _ _
    · split
      · exact dropGrant_tells (by decide) _ _ _ _
      · exact addRedo_tells _ _

theorem failGrant_tells (g : OgtEntry) (s : State) : Tells redoKinds redoCounters 3 s (failGrant g s) := by
  unfold failGrant
  split
  · exact (loseBytes_tells _ _).mono (by decide) (by decide) (by decide)
  · split
    · exact dropGrant_tells (by decide) _ _ _ _
    · split
      · exact dropGrant_tells (by decide) _ _ _ _
      · exact (addRedo_tells _ _).after rfl rfl

theorem refund_tells (i : Index) (d : Direction) (n : Nat) (s : State) :
    Tells [.dlDataSaturated] [] 1 s (refund i d n s) := by
  by_cases attached : (ctx s i).state.attached = true
  · rw [refund_attached d n attached]
    split
    · exact (setEvent_tells _ _ _ _).after rfl rfl
    · exact .of_same rfl rfl
  · rw [refund_unattached d n (by simpa using attached)]
    exact .refl s

theorem dropOutstanding_tells (i : Index) (s : State) : Tells [.released] [] 1 s (dropOutstanding i s) := by
  rw [dropOutstanding_eq]
  split
  · exact (setEvent_tells _ _ _ _).after rfl rfl
  · exact .of_same rfl rfl

/-- What a grant that leaves the OGT may report. -/
def grantKinds : List EventKind :=
  [.redoDrop, .redoOverflow, .redoNearFull, .counterHalf, .dlDataSaturated, .released]

theorem handedBack_tells (n : Epoch) (s : State) (g : OgtEntry) :
    Tells grantKinds redoCounters 3 s (handedBack n s g) := by
  have left : Tells grantKinds redoCounters 0 s (removeGrant g.tag s) := .of_same rfl rfl
  unfold handedBack
  split
  · exact left.trans ((returnGrant_tells _ _ _ _).mono (by decide) (List.Subset.refl _) (Nat.le_refl 3))
  · exact (left.trans ((refund_tells _ _ _ _).mono (by decide) (by decide) (Nat.le_refl 1))).mono (List.Subset.refl _)
      (List.Subset.refl _) (by decide)

theorem voidEntry_tells (n : Epoch) (s : State) (g : OgtEntry) : Tells grantKinds redoCounters 4 s (voidEntry n s g) :=
  (handedBack_tells n s g).trans
    ((dropOutstanding_tells _ _).mono (by decide) (List.nil_subset _) (Nat.le_refl 1))

theorem failEntry_tells (s : State) (g : OgtEntry) : Tells grantKinds redoCounters 4 s (failEntry s g) := by
  have left : Tells grantKinds redoCounters 0 s (removeGrant g.tag s) := .of_same rfl rfl
  have failed := (failGrant_tells g (removeGrant g.tag s)).mono (ks' := grantKinds) (by decide) (List.Subset.refl _)
    (Nat.le_refl 3)
  exact (left.trans failed).trans ((dropOutstanding_tells _ _).mono (by decide) (List.nil_subset _) (Nat.le_refl 1))

/-! ## The void of a batch -/

theorem foldl_voidEntry_tells (n : Epoch) (l : List OgtEntry) (s : State) :
    Tells grantKinds redoCounters (4 * l.length) s (l.foldl (voidEntry n) s) :=
  Tells.foldl (fun s g => voidEntry_tells n s g) l s

theorem voidBatch_eq (n e : Epoch) (s : State) :
    voidBatch n e s =
      advance .batchesVoided 1
        (setEvent .batchVoid e.val .none (setBatch e .void ((s.batch e).foldl (voidEntry n) s))) := rfl

theorem voidBatch_events (n e : Epoch) (s : State) :
    (voidBatch n e s).events.flag .batchVoid = true ∧
      (voidBatch n e s).events.counter .batchesVoided = min 65535 (s.events.counter .batchesVoided + 1) := by
  have emptied := (foldl_voidEntry_tells n (s.batch e) s).within.counters .batchesVoided (by decide)
  rw [voidBatch_eq]
  refine ⟨by simp [flag_advance], ?_⟩
  rw [counter_advance, if_pos rfl, ← emptied]
  rfl

/-- Settles O35, by the effect of each void grant. -/
theorem batchVoidAtTarget : Obligations.BatchVoidAtTarget := by
  intro n s epoch
  have at_n : now { s with pulse := { s.pulse with batchVoid := false } } = n := now_of_epoch epoch
  have taken : exec .batchVoid s = .next (takeVoid s) := rfl
  rw [taken]
  refine ⟨fun notDue => ?_, fun due op other => ?_, fun due op sent bounded => ?_⟩
  · simp [takeVoid, notDue]
  · have inTracks : tracks { s with pulse := { s.pulse with batchVoid := false } } = true := tracks_of op
    have notSent : ¬batchIs { s with pulse := { s.pulse with batchVoid := false } } n .sent = true := by
      simp only [batchIs, batchOf, Bool.and_eq_true, beq_iff_eq]
      rintro ⟨target, status⟩
      exact other (by rw [← target, ← status])
    simp only [takeVoid, due, inTracks, if_true, at_n, voidAtTarget, notSent, if_false, Bool.false_eq_true]
  · have inTracks : tracks { s with pulse := { s.pulse with batchVoid := false } } = true := tracks_of op
    have isSent : batchIs { s with pulse := { s.pulse with batchVoid := false } } n .sent = true := by
      simp [batchIs, batchOf, sent]
    have voided : takeVoid s = voidBatch n n { s with pulse := { s.pulse with batchVoid := false } } := by
      simp only [takeVoid, due, inTracks, if_true, at_n, voidAtTarget, isSent]
    rw [voided]
    have voids := voidBatch_voids n n { s with pulse := { s.pulse with batchVoid := false } }
    have events := voidBatch_events n n { s with pulse := { s.pulse with batchVoid := false } }
    have tracking := voidBatch_tracking n n { s with pulse := { s.pulse with batchVoid := false } }
    exact ⟨_, rfl, tracking.2, tracking.1, ⟨voids.contexts bounded.backlogs, voids.redo⟩, events.1, events.2, by simp,
      by simp, by simp, by simp, by simp, by simp, by simp⟩

end Sys2Proof.Machine
end


section
/-!
PROOFS. The expiry of grants and the removal of redo entries past their deadline (R96, R101).
-/
namespace Sys2Proof.Machine

open Sys2Proof

/-! ## Grants that fail one after another -/

/-- The redo entry of a failed grant, given by the epoch at which it fails, the figure D and its number in the order. -/
def OgtEntry.redo (g : OgtEntry) (n : Epoch) (distance serial : Nat) : RedoEntry :=
  { context := g.context, direction := g.direction, width := g.width, height := g.height, grade := g.grade
    bytes := g.bytes, redoNumber := g.redoNumber + 1, origin := g.tag, deadline := epochAfter n distance
    order := { epoch := n, serial := serial } }

/-- The Redo List after grants failed (R95, R100): the entries of the grants that could be handed over joined it. -/
def State.RedoJoined (s : State) (n : Epoch) (gone : List OgtEntry) (redo : List RedoEntry) : Prop :=
  s.tracking.redo.Sublist redo ∧
    (∀ e ∈ redo, e ∈ s.tracking.redo ∨
      ∃ g ∈ gone, ∃ serial, g.redoNumber < s.config.redoMax ∧ e = g.redo n s.config.redoDistance serial) ∧
    ∀ g ∈ gone, (ctx s g.context).state ≠ .closing → g.redoNumber < s.config.redoMax →
      s.tracking.redo.length + gone.length ≤ 48 → ∃ e ∈ redo, e.origin = g.tag

/-- A state after some grants failed at an epoch: the contexts, the Redo List, and what the next failure reads. -/
structure Fails (n : Epoch) (gone : List OgtEntry) (s t : State) : Prop where
  contexts : ∀ i, ctx t i = (ctx s i).losing (gone.filter fun g => g.context == i).length
  opens : ∀ i, (ctx s i).state ≠ .closing → (ctx t i).state ≠ .closing
  redo : s.RedoJoined n gone t.tracking.redo
  length : t.tracking.redo.length ≤ s.tracking.redo.length + gone.length
  config : t.config = s.config
  align : t.align = s.align

theorem Fails.refl (n : Epoch) (s : State) : Fails n [] s s where
  contexts i := by rw [List.filter_nil, List.length_nil, Context.losing_zero]
  opens _ h := h
  redo := ⟨List.Sublist.refl _, fun _ h => .inl h, fun _ h => absurd h List.not_mem_nil⟩
  length := Nat.le_refl _
  config := rfl
  align := rfl

theorem Fails.trans {n : Epoch} {a b : List OgtEntry} {s t u : State} (h : Fails n a s t) (g : Fails n b t u) :
    Fails n (a ++ b) s u where
  contexts i := by
    rw [g.contexts i, h.contexts i, Context.losing_add, List.filter_append, List.length_append]
  opens i := g.opens i ∘ h.opens i
  redo := by
    obtain ⟨sub, new, all⟩ := h.redo
    obtain ⟨sub', new', all'⟩ := g.redo
    rw [h.config] at new' all'
    refine ⟨sub.trans sub', fun e he => ?_, fun x hx opened below room => ?_⟩
    · rcases new' e he with he | ⟨x, hx, rest⟩
      · rcases new e he with he | ⟨x, hx, rest⟩
        · exact .inl he
        · exact .inr ⟨x, List.mem_append_left _ hx, rest⟩
      · exact .inr ⟨x, List.mem_append_right _ hx, rest⟩
    · rw [List.length_append] at room
      rcases List.mem_append.mp hx with hx | hx
      · obtain ⟨e, he, tag⟩ := all x hx opened below (by omega)
        exact ⟨e, sub'.subset he, tag⟩
      · have length := h.length
        exact all' x hx (h.opens _ opened) below (by omega)
  length := by
    have := h.length
    have := g.length
    rw [List.length_append]
    omega
  config := g.config.trans h.config
  align := g.align.trans h.align

/-- The Redo List after one failure. -/
theorem failGrant_joined (g : OgtEntry) (s : State) :
    s.RedoJoined (now s) [g] (failGrant g s).tracking.redo ∧
      (failGrant g s).tracking.redo.length ≤ s.tracking.redo.length + 1 := by
  have kept {l : List RedoEntry} (same : l = s.tracking.redo)
      (none : (ctx s g.context).state ≠ .closing → g.redoNumber < s.config.redoMax →
        s.tracking.redo.length + 1 ≤ 48 → False) :
      s.RedoJoined (now s) [g] l ∧ l.length ≤ s.tracking.redo.length + 1 := by
    rw [same]
    refine ⟨⟨List.Sublist.refl _, fun e he => .inl he, fun x hx opened below room => ?_⟩, Nat.le_succ _⟩
    rw [List.mem_singleton.mp hx] at opened below
    exact (none opened below room).elim
  unfold failGrant
  split
  · next closing => exact kept (by simp) fun opened _ _ => opened closing
  · split
    · next full =>
      refine kept (by simp) fun _ _ room => ?_
      have held : 48 ≤ s.tracking.redo.length := of_decide_eq_true full
      omega
    · split
      · next limit => exact kept (by simp) fun _ below _ => absurd limit (Nat.not_le.mpr below)
      · next below =>
        rw [addRedo_tracking]
        refine ⟨⟨insertRedo_sublist _ _, fun e he => ?_, fun x hx _ _ _ => ?_⟩, (insertRedo_length _ _).le⟩
        · rcases List.mem_cons.mp ((insertRedo_perm _ _).mem_iff.mp he) with rfl | he
          · exact .inr ⟨g, List.mem_singleton.mpr rfl, s.tracking.serial, Nat.not_le.mp below, rfl⟩
          · exact .inl he
        · rw [List.mem_singleton.mp hx]
          exact ⟨_, (insertRedo_perm _ _).mem_iff.mpr List.mem_cons_self, rfl⟩

theorem failEntry_fails {n : Epoch} {s : State} (epoch : now s = n) (g : OgtEntry) : Fails n [g] s (failEntry s g) := by
  have same (i : Index) : ctx (failGrant g (removeGrant g.tag s)) i = ctx s i := ctx_congr (by simp) i
  have failed := failGrant_joined g (removeGrant g.tag s)
  have at_n : now (removeGrant g.tag s) = n := epoch
  rw [at_n] at failed
  exact
    { contexts := fun i => by
        rw [failEntry, ctx_dropOutstanding_losing, same, same]
        by_cases mine : i = g.context
        · have one : ([g].filter fun x => x.context == i) = [g] := by simp [mine]
          rw [if_pos mine, one, mine]
          rfl
        · have none : ([g].filter fun x => x.context == i) = [] := by simp [Ne.symm mine]
          rw [if_neg mine, none]
          exact (Context.losing_zero _).symm
      opens := fun i opened => dropOutstanding_opens _ (by rwa [same])
      redo := by
        rw [failEntry, dropOutstanding_tracking]
        exact failed.1
      length := by
        rw [failEntry, dropOutstanding_tracking]
        exact failed.2
      config := by simp
      align := by simp }

theorem foldl_failEntry_fails (l : List OgtEntry) {n : Epoch} {s : State} (epoch : now s = n) :
    Fails n l s (l.foldl failEntry s) := by
  induction l generalizing s with
  | nil => exact .refl n s
  | cons g l ih =>
    have first := failEntry_fails epoch g
    have still : now (failEntry s g) = n := by rw [← epoch]; simp only [now, first.align]
    exact first.trans (ih still)

/-- A grant is past its deadline at an epoch (R96). -/
def OgtEntry.expired (n : Epoch) (g : OgtEntry) : Bool := g.committed && decide (513 ≤ (g.feedbackDeadline - n).val)

theorem expireGrants_eq (n : Epoch) (s : State) :
    expireGrants n s = (s.tracking.ogt.filter (OgtEntry.expired n)).foldl failEntry s := rfl

/-- The OGT after the expiry: every entry with the tag of an expired one is gone. -/
theorem expireGrants_ogt (n : Epoch) (s : State) :
    (expireGrants n s).tracking.ogt =
      s.tracking.ogt.filter fun g =>
        !s.tracking.ogt.any fun h => h.tag == g.tag && h.committed && decide (513 ≤ (h.feedbackDeadline - n).val) := by
  rw [expireGrants_eq, (foldl_failEntry_tracking ..).1]
  refine List.filter_congr fun g _ => ?_
  rw [Bool.eq_iff_iff]
  simp only [List.all_filter, List.all_eq_true, Bool.not_eq_true', List.any_eq_false, OgtEntry.expired, Bool.and_eq_true,
    Bool.or_eq_true, bne_iff_ne, beq_iff_eq, not_and]
  refine forall₂_congr fun h _ => ?_
  by_cases tag : h.tag = g.tag
  · simp [tag]
  · simp [tag, Ne.symm tag]

/-! ## Redo entries past their deadline -/

/-- A redo entry is past its deadline at an epoch (R101). -/
def RedoEntry.past (n : Epoch) (e : RedoEntry) : Bool := decide (513 ≤ (e.deadline - n).val)

theorem dropDeadlines_eq (n : Epoch) (s : State) :
    dropDeadlines n s =
      (s.tracking.redo.filter (RedoEntry.past n)).foldl dropExpired
        (setRedo (s.tracking.redo.filter fun e => !RedoEntry.past n e) s) := rfl

theorem dropExpired_counters (e : RedoEntry) (s : State) (c : Counter) :
    (dropExpired s e).events.counter c =
      if c = .bytesLost then
        min 65535 (s.events.counter .bytesLost + (s.events.remainder + e.bytes) / 64)
      else if c = .redoDrops then min 65535 (s.events.counter .redoDrops + 1) else s.events.counter c := by
  unfold dropExpired dropGrant
  rw [counter_loseBytes, counter_advance, counter_advance, remainder_advance]
  rfl

theorem dropExpired_remainder (e : RedoEntry) (s : State) :
    (dropExpired s e).events.remainder = (s.events.remainder + e.bytes) % 64 := by
  unfold dropExpired dropGrant
  rw [remainder_loseBytes, remainder_advance]
  rfl

theorem dropExpired_flag (e : RedoEntry) (s : State) : (dropExpired s e).events.flag .redoDrop = true := by
  have set : (setEvent .redoDrop e.context.val .deadline s).events.flag .redoDrop = true := by simp
  have counted := (advance_tells .redoDrops 1 (setEvent .redoDrop e.context.val .deadline s)).within.kept _ set
  exact (loseBytes_tells _ _).within.kept _ counted

/-- The counters after the entries of a list are dropped, in order: one redo drop each, their bytes lost. -/
theorem foldl_dropExpired_counters (l : List RedoEntry) {s : State} (drops : s.events.counter .redoDrops ≤ 65535)
    (lost : s.events.counter .bytesLost ≤ 65535) (left : s.events.remainder < 64) :
    (l.foldl dropExpired s).events.counter .redoDrops = min 65535 (s.events.counter .redoDrops + l.length) ∧
      (l.foldl dropExpired s).events.remainder = (s.events.remainder + (l.map RedoEntry.bytes).sum) % 64 ∧
      (l.foldl dropExpired s).events.counter .bytesLost =
        min 65535 (s.events.counter .bytesLost + (s.events.remainder + (l.map RedoEntry.bytes).sum) / 64) := by
  induction l generalizing s with
  | nil =>
    refine ⟨?_, ?_, ?_⟩ <;> simp only [List.foldl_nil, List.length_nil, List.map_nil, List.sum_nil] <;> omega
  | cons e l ih =>
    have drops' : (dropExpired s e).events.counter .redoDrops = min 65535 (s.events.counter .redoDrops + 1) := by
      simp [dropExpired_counters]
    have lost' : (dropExpired s e).events.counter .bytesLost =
        min 65535 (s.events.counter .bytesLost + (s.events.remainder + e.bytes) / 64) := by
      simp [dropExpired_counters]
    have left' := dropExpired_remainder e s
    obtain ⟨rest, remainder, bytes⟩ := ih (s := dropExpired s e) (by omega) (by omega) (by omega)
    rw [List.foldl_cons, rest, remainder, bytes, drops', lost', left', List.length_cons, List.map_cons, List.sum_cons]
    refine ⟨?_, ?_, ?_⟩ <;> omega

theorem foldl_dropExpired_flag (l : List RedoEntry) (s : State) :
    (l.foldl dropExpired s).events.flag .redoDrop = true ↔ s.events.flag .redoDrop = true ∨ l ≠ [] := by
  induction l generalizing s with
  | nil => simp
  | cons e l ih => simp [ih, dropExpired_flag]

/-- The NOTICE of a redo entry dropped at its deadline. -/
def RedoEntry.dropped (n : Epoch) (e : RedoEntry) : OutRecord :=
  .notice { event := .redoDrop, subject := e.context.val, code := .deadline, epoch := some n }

/-- A record that tells of a redo drop. -/
def OutRecord.isDrop : OutRecord → Bool
  | .notice x => x.event == .redoDrop
  | _ => false

/-- One drop with room: its NOTICE, and behind it at most two of COUNTER_HALF. -/
theorem dropExpired_queue {n : Epoch} {s : State} (e : RedoEntry) (epoch : s.align.epoch = some n)
    (on : s.events.enabled .redoDrop = true) (room : s.link.queue.length < 24) :
    ∃ ns : List Notice,
      (dropExpired s e).link.queue = s.link.queue ++ e.dropped n :: ns.map OutRecord.notice ∧ ns.length ≤ 2 ∧
        ∀ x ∈ ns, x.event = .counterHalf ∧ s.events.enabled .counterHalf = true := by
  have told := setEvent_queue e.context.val .deadline on room
  have counted := (advance_tells .redoDrops 1 (setEvent .redoDrop e.context.val .deadline s)).mono
    (ks' := [.counterHalf]) (cs' := redoCounters) (by decide) (by decide) (Nat.le_refl 1)
  have lost := (loseBytes_tells e.bytes (advance .redoDrops 1 (setEvent .redoDrop e.context.val .deadline s))).mono
    (ks' := [.counterHalf]) (cs' := redoCounters) (by decide) (by decide) (Nat.le_refl 1)
  obtain ⟨ns, queue, length, kinds⟩ := (counted.trans lost).queued
  refine ⟨ns, ?_, length, fun x hx => ?_⟩
  · rw [dropExpired, dropGrant, queue, told, epoch, List.append_assoc]
    rfl
  · obtain ⟨kind, enabled⟩ := kinds x hx
    have half : x.event = .counterHalf := List.mem_singleton.mp kind
    rw [half] at enabled
    exact ⟨half, enabled⟩

theorem dropExpired_enabled (e : RedoEntry) (s : State) (k : EventKind) :
    (dropExpired s e).events.enabled k = s.events.enabled k :=
  (dropGrant_tells (k := .redoDrop) (by decide) .deadline e.context e.bytes s).within.enabled k

theorem foldl_dropExpired_told (l : List RedoEntry) {n : Epoch} {s : State} (epoch : s.align.epoch = some n)
    (on : s.events.enabled .redoDrop = true) (room : s.link.queue.length + 3 * l.length ≤ 24) :
    (l.foldl dropExpired s).link.queue.filter OutRecord.isDrop =
      s.link.queue.filter OutRecord.isDrop ++ l.map (RedoEntry.dropped n) := by
  induction l generalizing s with
  | nil => simp
  | cons e l ih =>
    rw [List.length_cons] at room
    obtain ⟨ns, queue, length, kinds⟩ := dropExpired_queue e epoch on (by omega)
    have others : (ns.map OutRecord.notice).filter OutRecord.isDrop = [] := by
      rw [List.filter_eq_nil_iff, List.forall_mem_map]
      intro x hx
      simp [OutRecord.isDrop, (kinds x hx).1]
    have size : (dropExpired s e).link.queue.length ≤ s.link.queue.length + 3 := by
      rw [queue]
      simp
      omega
    rw [List.foldl_cons, ih (by simpa using epoch) (by rwa [dropExpired_enabled]) (by omega), queue]
    simp [others, OutRecord.isDrop, RedoEntry.dropped]

theorem foldl_dropExpired_queue (l : List RedoEntry) {n : Epoch} {s : State} (epoch : s.align.epoch = some n)
    (on : s.events.enabled .redoDrop = true) (off : s.events.enabled .counterHalf = false)
    (room : s.link.queue.length + l.length ≤ 24) :
    (l.foldl dropExpired s).link.queue = s.link.queue ++ l.map (RedoEntry.dropped n) := by
  induction l generalizing s with
  | nil => simp
  | cons e l ih =>
    rw [List.length_cons] at room
    obtain ⟨ns, queue, -, kinds⟩ := dropExpired_queue e epoch on (by omega)
    have none : ns = [] := List.eq_nil_iff_forall_not_mem.mpr fun x hx => by
      have := (kinds x hx).2
      rw [off] at this
      cases this
    rw [none] at queue
    have size : (dropExpired s e).link.queue.length = s.link.queue.length + 1 := by simp [queue]
    rw [List.foldl_cons, ih (by simpa using epoch) (by rwa [dropExpired_enabled]) (by rwa [dropExpired_enabled])
      (by omega), queue]
    simp

/-! ## The two parts of a pulse's work -/

/-- Settles O36: grants past their deadline fail one after another, redo entries past theirs are dropped in order. -/
theorem expiryAndDeadlineRemoval : Obligations.ExpiryAndDeadlineRemoval := by
  intro n s epoch op
  refine ⟨fun due => ?_, fun due bounded => ?_⟩
  · generalize ht : { s with pulse := { s.pulse with grantExpiry := false } } = t
    have at_n : now t = n := by rw [← ht]; exact now_of_epoch epoch
    have inTracks : tracks t = true := by rw [← ht]; exact tracks_of op
    have taken : exec .grantExpiry s = .next (expireGrants n t) := by
      show Host.Outcome.next (takeExpiry s) = _
      simp only [takeExpiry, due, if_true, ht, inTracks, at_n]
    have fails := foldl_failEntry_fails (t.tracking.ogt.filter (OgtEntry.expired n)) at_n
    rw [← expireGrants_eq] at fails
    have ring : (expireGrants n t).tracking.ring = t.tracking.ring := (foldl_failEntry_tracking ..).2
    obtain ⟨old, new, all⟩ := fails.redo
    refine ⟨expireGrants n t, taken, ?_, ⟨fun i => ?_, fun e he => ?_, ?_, ?_⟩, ?_⟩
    · rw [expireGrants_ogt]
      subst ht
      rfl
    · rw [fails.contexts i]
      have mine (l : List OgtEntry) : l ≠ [] ↔ l.length ≠ 0 := by simp
      simp only [mine]
      subst ht
      rfl
    · exact old.subset (by subst ht; exact he)
    · subst ht
      exact new
    · subst ht
      exact all
    · subst ht
      refine ⟨by simp, ring, by simp, by simp, by simp⟩
  · generalize ht : { s with pulse := { s.pulse with redoDrop := false } } = t
    have at_n : now t = n := by rw [← ht]; exact now_of_epoch epoch
    have inTracks : tracks t = true := by rw [← ht]; exact tracks_of op
    have taken : exec .redoDrop s = .next (dropDeadlines n t) := by
      show Host.Outcome.next (takeDrop s) = _
      simp only [takeDrop, due, if_true, ht, inTracks, at_n]
    have keptList (e : RedoEntry) : (!RedoEntry.past n e) = decide ((e.deadline - n).val < 513) := by
      rw [RedoEntry.past, ← decide_not]
      exact decide_eq_decide.mpr Nat.not_le
    have counts := foldl_dropExpired_counters (t.tracking.redo.filter (RedoEntry.past n))
      (s := setRedo (t.tracking.redo.filter fun e => !RedoEntry.past n e) t) (by subst ht; exact bounded.1 _)
      (by subst ht; exact bounded.1 _) (by subst ht; exact bounded.2)
    have flag := foldl_dropExpired_flag (t.tracking.redo.filter (RedoEntry.past n))
      (setRedo (t.tracking.redo.filter fun e => !RedoEntry.past n e) t)
    have told := foldl_dropExpired_told (t.tracking.redo.filter (RedoEntry.past n)) (n := n)
      (s := setRedo (t.tracking.redo.filter fun e => !RedoEntry.past n e) t)
    have queue := foldl_dropExpired_queue (t.tracking.redo.filter (RedoEntry.past n)) (n := n)
      (s := setRedo (t.tracking.redo.filter fun e => !RedoEntry.past n e) t)
    rw [← dropDeadlines_eq] at counts flag told queue
    subst ht
    refine ⟨_, taken, ?_, counts.1, counts.2, ?_, fun on => ⟨told epoch on, fun off => queue epoch on off⟩, by simp,
      by simp, by simp, by simp⟩
    · rw [dropDeadlines_tracking]
      simp only [← keptList]
      rfl
    · rw [flag, ne_eq, List.filter_eq_nil_iff]
      simp [RedoEntry.past]

end Sys2Proof.Machine
end


section
/-!
PROOFS. The update event of the Edge Reservation Unit and its hold-down list (R123 to R129).
-/
namespace Sys2Proof.Machine

open Sys2Proof

/-! ## Sets of sub-bands -/

theorem mem_members {u : SubBands} {b : Nat} : b ∈ members u ↔ u.getLsbD b = true := by
  simp only [members, List.mem_filter, List.mem_range, and_iff_right_iff_imp]
  exact BitVec.lt_of_getLsbD

theorem getLsbD_without (u : SubBands) (c : Nat) {b : Nat} (hb : b < 24) :
    (without u c).getLsbD b = (u.getLsbD b && !(c == b)) := by
  have hbit : (1#24 <<< c).getLsbD b = (c == b) := by
    have hplace : (c ≤ b ∧ b - c = 0) ↔ c = b := by omega
    rw [Bool.eq_iff_iff]
    simpa [hb] using hplace
  have flipped : (~~~(1#24 <<< c)).getLsbD b = !(c == b) := by rw [BitVec.getLsbD_not, hbit, decide_eq_true hb]; simp
  rw [without, BitVec.getLsbD_and, flipped]

theorem getLsbD_foldl_without (l : List Nat) (u : SubBands) {b : Nat} (hb : b < 24) :
    (l.foldl without u).getLsbD b = (u.getLsbD b && !l.contains b) := by
  induction l generalizing u with
  | nil => simp
  | cons c l ih =>
    rw [List.foldl_cons, ih, getLsbD_without u c hb, List.contains_cons, Bool.not_or, Bool.and_assoc,
      BEq.comm (a := b)]

/-- The last member of a set is its highest. -/
theorem members_getLast {u : SubBands} {b : Nat} (h : (members u).getLast? = some b) :
    u.getLsbD b = true ∧ ∀ c, b < c → u.getLsbD c = false := by
  obtain ⟨front, split⟩ := List.getLast?_eq_some_iff.mp h
  refine ⟨mem_members.mp (by rw [split]; simp), fun c above => ?_⟩
  by_contra held
  have sorted : (members u).Pairwise (· < ·) := List.pairwise_lt_range.filter _
  have mem : c ∈ members u := mem_members.mpr (by simpa using held)
  rw [split] at sorted mem
  rcases List.mem_append.mp mem with mem | mem
  · have below := (List.pairwise_append.mp sorted).2.2 c mem b (List.mem_singleton.mpr rfl)
    omega
  · rw [List.mem_singleton.mp mem] at above
    exact absurd above (Nat.lt_irrefl b)

/-! ## The steps of an update event -/

/-- When a sub-band is yielded to a station, condition by condition (R126). -/
theorem yieldsTo_eq (s : State) (b : Nat) (j : Station) :
    yieldsTo s b j =
      (let p := s.peers.records.get j
       p.adjacent && p.state != .absent && !p.excluded && !p.mismatch && p.reserved.getLsbD b &&
         (decide (s.edge.demand < p.demand) ||
           (decide (s.edge.demand = p.demand) && decide (j.val < s.align.station.val)))) := by
  simp only [yieldsTo, Peer.blocks, Peer.incompatible, Bool.not_or, Bool.and_assoc]

/-- Exactly the own sub-bands that no counting peer with a claim to them holds are left by the yield step. -/
theorem yieldStep_left (s : State) {b : Nat} (hb : b < 24) :
    (yieldStep s).ownSet.getLsbD b =
      (s.edge.ownSet.getLsbD b && !(List.finRange 8).any fun j => yieldsTo s b j) := by
  have same : (yieldStep s).ownSet = (yielded s).foldl without s.edge.ownSet := rfl
  rw [same, getLsbD_foldl_without _ _ hb, Bool.eq_iff_iff]
  cases own : s.edge.ownSet.getLsbD b <;> simp [yielded, mem_members, own]

/-- The sub-bands that the yield step gave up are those it held down. -/
theorem yielded_eq (s : State) :
    yielded s = (List.range 24).filter fun b => s.edge.ownSet.getLsbD b && !(yieldStep s).ownSet.getLsbD b := by
  rw [yielded, members, List.filter_filter]
  refine List.filter_congr fun b hb => ?_
  rw [yieldStep_left s (List.mem_range.mp hb)]
  cases s.edge.ownSet.getLsbD b <;> simp

/-- The adjust step moves the set by at most one sub-band towards the target (R128). -/
theorem adjustStep_ownSet (bands target : Nat) (blocked : SubBands) (e : Edge) :
    let t := adjustStep bands target blocked e
    let size := (members e.ownSet).length
    (size = target → t.ownSet = e.ownSet) ∧
      (size < target →
        (∃ b, b < bands ∧ e.ownSet.getLsbD b = false ∧ blocked.getLsbD b = false ∧ (∀ h ∈ e.holdDown, h.band ≠ b) ∧
            t.ownSet = withBand e.ownSet b ∧
            ∀ c, c < b → e.ownSet.getLsbD c = true ∨ blocked.getLsbD c = true ∨ ∃ h ∈ e.holdDown, h.band = c) ∨
          (t.ownSet = e.ownSet ∧
            ∀ b, b < bands → e.ownSet.getLsbD b = true ∨ blocked.getLsbD b = true ∨ ∃ h ∈ e.holdDown, h.band = b)) ∧
      (target < size →
        ∃ b, e.ownSet.getLsbD b = true ∧ (∀ c, b < c → e.ownSet.getLsbD c = false) ∧ t.ownSet = without e.ownSet b) := by
  intro t size
  have taken (c : Nat) :
      (!e.ownSet.getLsbD c && !blocked.getLsbD c && !e.holdDown.any fun h => h.band == c) = false →
        e.ownSet.getLsbD c = true ∨ blocked.getLsbD c = true ∨ ∃ h ∈ e.holdDown, h.band = c := by
    cases e.ownSet.getLsbD c <;> cases blocked.getLsbD c <;> simp
  refine ⟨fun same => ?_, fun below => ?_, fun above => ?_⟩
  · have kept : t = e := by
      show adjustStep bands target blocked e = e
      unfold adjustStep
      rw [if_neg (by omega), if_neg (by omega)]
    rw [kept]
  · cases found : bandToAdd bands blocked e with
    | some b =>
      have added : t = { e with ownSet := withBand e.ownSet b } := by
        show adjustStep bands target blocked e = _
        unfold adjustStep
        rw [if_pos below, found]
      obtain ⟨free, range, first⟩ := List.find?_range_eq_some.mp found
      simp only [Bool.and_eq_true, Bool.not_eq_true', List.any_eq_false, beq_iff_eq] at free
      obtain ⟨⟨own, unblocked⟩, notHeld⟩ := free
      refine .inl ⟨b, List.mem_range.mp range, own, unblocked, notHeld, by rw [added], fun c hc => taken c ?_⟩
      simpa only [Bool.not_eq_true'] using first c hc
    | none =>
      have kept : t = e := by
        show adjustStep bands target blocked e = e
        unfold adjustStep
        rw [if_pos below, found]
      have none := List.find?_range_eq_none.mp found
      exact .inr ⟨by rw [kept], fun b hb => taken b (by simpa only [Bool.not_eq_true'] using none b hb)⟩
  · have nonempty : members e.ownSet ≠ [] := fun none => by
      have : size = 0 := by show (members e.ownSet).length = 0; rw [none]; rfl
      omega
    have last := List.getLast?_eq_some_getLast nonempty
    have moved : t = { e with ownSet := without e.ownSet ((members e.ownSet).getLast nonempty) } := by
      show adjustStep bands target blocked e = _
      unfold adjustStep
      rw [if_neg (by omega), if_pos above, last]
    obtain ⟨own, highest⟩ := members_getLast last
    exact ⟨_, own, highest, by rw [moved]⟩

/-- The adjust step writes the own set alone. -/
theorem adjustStep_rest (bands target : Nat) (blocked : SubBands) (e : Edge) :
    adjustStep bands target blocked e = { e with ownSet := (adjustStep bands target blocked e).ownSet } := by
  unfold adjustStep
  dsimp only
  split
  · split <;> rfl
  · split
    · split <;> rfl
    · rfl

/-- Settles O38: the three steps in order, and the hold-downs that expire. -/
theorem edgeUpdateAndHoldDown : Obligations.EdgeUpdateAndHoldDown := by
  refine ⟨fun s => ⟨fun notDue => ?_, fun due op on => ?_⟩, fun n s epoch => ⟨fun notDue => ?_, fun due op => ?_⟩⟩
  · show Host.Outcome.next (takeUpdate s) = _
    simp [takeUpdate, notDue]
  · generalize hu : ({ s with
        edge := { s.edge with holdDown :=
          if s.pulse.holdDown then s.edge.holdDown.filter fun h => h.expiry != now s else s.edge.holdDown }
        pulse := { s.pulse with update := false, holdDown := false } } : State) = u
    have expired : takeHoldDown { s with pulse := { s.pulse with update := false } } = u := by
      subst hu
      unfold takeHoldDown
      cases held : s.pulse.holdDown
      · exact congrArg (fun h => { s with pulse := { s.pulse with update := false, holdDown := h } }) held
      · simp only [if_true, op, beq_self_eq_true]
        rfl
    have counts : edgeCounts u = true := by
      subst hu
      simp only [edgeCounts, op, beq_self_eq_true, Bool.true_and]
      exact on
    have taken : exec .updateEvent s = .next (updateEdge u) := by
      show Host.Outcome.next (takeUpdate s) = _
      simp only [takeUpdate, due, if_true, expired, counts]
    have rest := adjustStep_rest (bandsOf u) (targetSize u.config u.edge.subBands) (blockedSet u) (yieldStep u)
    have own := adjustStep_ownSet (bandsOf u) (targetSize u.config u.edge.subBands) (blockedSet u) (yieldStep u)
    have moved : (updateEdge u).edge =
        { yieldStep u with
          ownSet := (adjustStep (bandsOf u) (targetSize u.config u.edge.subBands) (blockedSet u) (yieldStep u)).ownSet } :=
      rest
    have heldDown : (yieldStep u).holdDown = u.edge.holdDown ++ ((List.range 24).filter fun b =>
        u.edge.ownSet.getLsbD b && !(yieldStep u).ownSet.getLsbD b).map fun b =>
          { band := b, expiry := epochAfter (now u) u.config.holdDown } := by
      rw [← yielded_eq]
      rfl
    refine ⟨updateEdge u, (yieldStep u).ownSet, taken, ?_, fun b hb => ?_, ?_, ?_, ?_, ?_, ?_⟩
    · subst hu
      rfl
    · simp only [yieldStep_left u hb, yieldsTo_eq]
      subst hu
      rfl
    · rw [moved]
      subst hu
      exact heldDown
    · rw [moved]
      subst hu
      rfl
    · rw [moved]
      subst hu
      rfl
    · rw [moved]
      subst hu
      rfl
    · rw [moved]
      subst hu
      exact own
  · show Host.Outcome.next (takeHoldDown s) = _
    simp [takeHoldDown, notDue]
  · show Host.Outcome.next (takeHoldDown s) = _
    have at_n : now { s with pulse := { s.pulse with holdDown := false } } = n := now_of_epoch epoch
    simp [takeHoldDown, due, op, at_n, expireHoldDown]

end Sys2Proof.Machine
end


section
/-!
PROOFS. The void of every SENT batch, and the entry to HOLDING (R23, R64, R90, R103, R156).
-/
namespace Sys2Proof.Machine

open Sys2Proof

/-! ## Targets in order -/

theorem insertEpoch_perm (e : Epoch) (l : List Epoch) : (insertEpoch e l).Perm (e :: l) := by
  induction l with
  | nil => exact .refl _
  | cons x l ih =>
    unfold insertEpoch
    split
    · exact .refl _
    · exact (ih.cons x).trans (.swap e x l)

theorem foldr_insertEpoch_perm (l : List Epoch) : (l.foldr insertEpoch []).Perm l := by
  induction l with
  | nil => exact .refl _
  | cons e l ih => exact (insertEpoch_perm e _).trans (ih.cons e)

/-- Insertion keeps an order of epochs that lie within half the epochs of one. -/
theorem insertEpoch_sorted {m e : Epoch} {l : List Epoch} (near : ∀ x ∈ e :: l, (x - m).val ≤ 511) (new : e ∉ l)
    (sorted : l.Pairwise fun a b => 513 ≤ (a - b).val) :
    (insertEpoch e l).Pairwise fun a b => 513 ≤ (a - b).val := by
  have before {a b : Epoch} (ha : a ∈ e :: l) (hb : b ∈ e :: l) :
      513 ≤ (a - b).val ↔ (a - m).val < (b - m).val := by
    rw [← earlier_iff (near a ha) (near b hb)]
    simp [earlier]
  induction l with
  | nil => exact List.pairwise_singleton _ _
  | cons x l ih =>
    obtain ⟨first, rest⟩ := List.pairwise_cons.mp sorted
    have tail {a : Epoch} (h : a ∈ e :: l) : a ∈ e :: x :: l := by
      rcases List.mem_cons.mp h with rfl | h
      · exact List.mem_cons_self
      · exact List.mem_cons_of_mem _ (List.mem_cons_of_mem _ h)
    unfold insertEpoch
    split
    · next early =>
      refine List.pairwise_cons.mpr ⟨fun y hy => ?_, sorted⟩
      have ex : (e - m).val < (x - m).val := (before (by simp) (by simp)).mp (by simpa [earlier] using early)
      rcases List.mem_cons.mp hy with rfl | hy
      · exact (before (by simp) (by simp)).mpr ex
      · exact (before (by simp) (by simp [hy])).mpr (ex.trans ((before (by simp) (by simp [hy])).mp (first y hy)))
    · next late =>
      have apart : (x - m).val ≠ (e - m).val := fun same => new (by
        have : x = e := sub_left_injective (Fin.ext same)
        simp [this])
      have xe : 513 ≤ (x - e).val := by
        rw [before (by simp) (by simp)]
        have : ¬(e - m).val < (x - m).val := fun h => late (by simpa [earlier] using (before (by simp) (by simp)).mpr h)
        omega
      refine List.pairwise_cons.mpr ⟨fun y hy => ?_, ih (fun a ha => near a (tail ha)) (fun h => new (by simp [h])) rest
        fun ha hb => before (tail ha) (tail hb)⟩
      rcases List.mem_cons.mp ((insertEpoch_perm e l).mem_iff.mp hy) with rfl | hy
      · exact xe
      · exact first y hy

theorem foldr_insertEpoch_sorted {m : Epoch} {l : List Epoch} (near : ∀ x ∈ l, (x - m).val ≤ 511) (distinct : l.Nodup) :
    (l.foldr insertEpoch []).Pairwise fun a b => 513 ≤ (a - b).val := by
  induction l with
  | nil => exact .nil
  | cons e l ih =>
    obtain ⟨new, rest⟩ := List.nodup_cons.mp distinct
    have perm := foldr_insertEpoch_perm l
    refine insertEpoch_sorted (m := m) (fun x hx => ?_) (fun h => new (perm.mem_iff.mp h)) (ih (fun x hx => near x (by simp [hx])) rest)
    rcases List.mem_cons.mp hx with rfl | hx
    · exact near x (by simp)
    · exact near x (by simp [perm.mem_iff.mp hx])

/-! ## The batches that are SENT -/

/-- The record of the Batch Ring for an epoch is SENT. -/
def State.isSent (s : State) (e : Epoch) : Prop := s.tracking.ring.get (ringIndex e) = { target := some e, status := .sent }

theorem sentTargets_spec {s : State} (placed : s.RingPlaced) :
    (sentTargets s).Nodup ∧ (∀ e, e ∈ sentTargets s ↔ s.isSent e) ∧
      ∀ m : Epoch, (∀ e ∈ sentTargets s, (e - m).val ≤ 511) →
        (sentTargets s).Pairwise fun a b => 513 ≤ (a - b).val := by
  have perm := foldr_insertEpoch_perm ((s.tracking.ring.list.filter fun r => r.status == .sent).filterMap
    BatchRecord.target)
  have target (p : Fin 16) (e : Epoch) :
      (p ∈ (List.finRange 16).filter fun p => (s.tracking.ring.get p).status == .sent) →
      (s.tracking.ring.get p).target = some e → ringIndex e = p := fun hp he => by
    obtain ⟨e', he', place⟩ := placed p (by simpa using hp)
    rw [he, Option.some.injEq] at he'
    rw [he', place]
  have listed : (s.tracking.ring.list.filter fun r => r.status == .sent).filterMap BatchRecord.target =
      ((List.finRange 16).filter fun p => (s.tracking.ring.get p).status == .sent).filterMap
        fun p => (s.tracking.ring.get p).target := by
    rw [Table.list_eq_map, List.filter_map, List.filterMap_map]
    rfl
  have distinct : ((s.tracking.ring.list.filter fun r => r.status == .sent).filterMap BatchRecord.target).Nodup := by
    rw [listed, List.Nodup, List.pairwise_filterMap]
    refine ((List.nodup_finRange 16).filter _).imp_of_mem fun {p q} hp hq apart e he e' he' same => apart ?_
    rw [← target p e hp he, ← target q e' hq he', same]
  refine ⟨perm.nodup_iff.mpr distinct, fun e => ?_, fun m near =>
    foldr_insertEpoch_sorted (fun x hx => near x (perm.mem_iff.mpr hx)) distinct⟩
  rw [sentTargets, perm.mem_iff, listed, List.mem_filterMap]
  constructor
  · rintro ⟨p, hp, he⟩
    have place := target p e hp he
    rw [State.isSent, place]
    have sent : (s.tracking.ring.get p).status = .sent := by simpa using hp
    rw [← he, ← sent]
  · intro sent
    exact ⟨ringIndex e, by simp [show s.tracking.ring.get (ringIndex e) = _ from sent],
      by rw [show s.tracking.ring.get (ringIndex e) = _ from sent]⟩

/-! ## Voids of several batches -/

theorem voidBatch_batch {n e e' : Epoch} {s : State} (apart : e' ≠ e) : (voidBatch n e s).batch e' = s.batch e' := by
  rw [State.batch, (voidBatch_tracking n e s).1, List.filter_filter]
  refine List.filter_congr fun g _ => ?_
  by_cases same : g.tag.epoch = e' <;> simp [same, apart]

theorem foldl_voidBatch_voids (n : Epoch) (l : List Epoch) (distinct : l.Nodup) (s : State) :
    Voids n (l.flatMap s.batch) s (l.foldl (fun t e => voidBatch n e t) s) := by
  induction l generalizing s with
  | nil => exact .of_same rfl rfl
  | cons e l ih =>
    obtain ⟨new, rest⟩ := List.nodup_cons.mp distinct
    have later : l.flatMap (voidBatch n e s).batch = l.flatMap s.batch :=
      List.flatMap_congr fun e' he' => voidBatch_batch fun same => new (same ▸ he')
    have := (voidBatch_voids n e s).trans (ih rest (voidBatch n e s))
    rwa [later] at this

theorem foldl_voidBatch_ogt (n : Epoch) (l : List Epoch) (s : State) :
    (l.foldl (fun t e => voidBatch n e t) s).tracking.ogt = s.tracking.ogt.filter fun g => !l.contains g.tag.epoch := by
  induction l generalizing s with
  | nil => simp
  | cons e l ih =>
    rw [List.foldl_cons, ih, (voidBatch_tracking n e s).1, List.filter_filter]
    refine List.filter_congr fun g _ => ?_
    rw [List.contains_cons, Bool.not_or, Bool.and_comm]
    rfl

theorem foldl_voidBatch_ring (n : Epoch) (l : List Epoch) {s : State} (distinct : l.Nodup) (sent : ∀ e ∈ l, s.isSent e)
    (p : Fin 16) :
    (l.foldl (fun t e => voidBatch n e t) s).tracking.ring.get p =
      if ∃ e ∈ l, ringIndex e = p then { s.tracking.ring.get p with status := .void } else s.tracking.ring.get p := by
  induction l generalizing s with
  | nil => simp
  | cons e l ih =>
    obtain ⟨new, rest⟩ := List.nodup_cons.mp distinct
    have head := sent e List.mem_cons_self
    have apart : ∀ e' ∈ l, ringIndex e' ≠ ringIndex e := fun e' he' same => new (by
      have other := sent e' (List.mem_cons_of_mem _ he')
      rw [State.isSent, same, show s.tracking.ring.get (ringIndex e) = _ from head] at other
      injection other with target
      injection target with target
      rwa [target])
    have ring := (voidBatch_tracking n e s).2
    rw [List.foldl_cons, ih rest fun e' he' => by
      rw [State.isSent, ring, Table.get_set_ne _ _ (apart e' he')]
      exact sent e' (List.mem_cons_of_mem _ he'), ring]
    by_cases here : ringIndex e = p
    · subst here
      have not_later : ¬∃ e' ∈ l, ringIndex e' = ringIndex e := fun ⟨e', he', same⟩ => apart e' he' same
      rw [if_neg not_later, if_pos ⟨e, List.mem_cons_self, rfl⟩, Table.get_set_self,
        show s.tracking.ring.get (ringIndex e) = _ from head]
    · rw [Table.get_set_ne _ _ (Ne.symm here)]
      have same : (∃ e' ∈ e :: l, ringIndex e' = p) ↔ ∃ e' ∈ l, ringIndex e' = p := by simp [here]
      simp only [same]

/-- The events that the void of a batch may set. -/
def voidKinds : List EventKind := .batchVoid :: grantKinds

/-- The counters that it may advance. -/
def voidCounters : List Counter := .batchesVoided :: redoCounters

theorem voidBatch_tells (n e : Epoch) (s : State) : ∃ m, Tells voidKinds voidCounters m s (voidBatch n e s) := by
  have emptied := (foldl_voidEntry_tells n (s.batch e) s).mono (ks' := voidKinds) (cs' := voidCounters)
    (by decide) (by decide) (Nat.le_refl _)
  have set (t : State) := (setEvent_tells .batchVoid e.val .none t).mono (ks' := voidKinds)
    (cs' := voidCounters) (by decide) (by decide) (Nat.le_refl 1)
  have counted (t : State) := (advance_tells .batchesVoided 1 t).mono (ks' := voidKinds)
    (cs' := voidCounters) (by decide) (by decide) (Nat.le_refl 1)
  have marked : Tells voidKinds voidCounters 0 ((s.batch e).foldl (voidEntry n) s)
      (setBatch e .void ((s.batch e).foldl (voidEntry n) s)) := .of_same rfl rfl
  exact ⟨_, ((emptied.trans marked).trans (set _)).trans (counted _)⟩

theorem foldl_voidBatch_tells (n : Epoch) (l : List Epoch) (s : State) :
    ∃ m, Tells voidKinds voidCounters m s (l.foldl (fun t e => voidBatch n e t) s) := by
  induction l generalizing s with
  | nil => exact ⟨0, .refl s⟩
  | cons e l ih =>
    obtain ⟨a, first⟩ := voidBatch_tells n e s
    obtain ⟨b, rest⟩ := ih (voidBatch n e s)
    exact ⟨_, first.trans rest⟩

theorem foldl_voidBatch_events (n : Epoch) (l : List Epoch) (s : State) :
    ((l.foldl (fun t e => voidBatch n e t) s).events.flag .batchVoid = true ↔
        s.events.flag .batchVoid = true ∨ l ≠ []) ∧
      (l.foldl (fun t e => voidBatch n e t) s).events.counter .batchesVoided =
        if l = [] then s.events.counter .batchesVoided
        else min 65535 (s.events.counter .batchesVoided + l.length) := by
  induction l generalizing s with
  | nil => simp
  | cons e l ih =>
    obtain ⟨flag, count⟩ := voidBatch_events n e s
    rw [List.foldl_cons, (ih _).1, (ih _).2, flag, count, List.length_cons, if_neg (List.cons_ne_nil e l)]
    refine ⟨by simp, ?_⟩
    split
    · next none => rw [none]; rfl
    · omega

/-- The NOTICE of a void batch. -/
def voidNotice (now : Option Epoch) (e : Epoch) : OutRecord :=
  .notice { event := .batchVoid, subject := e.val, code := .none, epoch := now }

/-- With BATCH_VOID alone enabled a void queues its NOTICE and no other. -/
theorem voidBatch_queue (n e : Epoch) {s : State} (only : ∀ k, s.events.enabled k = true ↔ k = .batchVoid)
    (room : s.link.queue.length < 24) :
    (voidBatch n e s).link.queue = s.link.queue ++ [voidNotice s.align.epoch e] := by
  have off {k : EventKind} (other : k ≠ .batchVoid) : s.events.enabled k = false :=
    Bool.eq_false_iff.mpr fun on => other ((only k).mp on)
  have emptied := foldl_voidEntry_tells n (s.batch e) s
  have quiet := emptied.silent fun k hk => off fun same => by subst same; revert hk; decide
  generalize hu : setBatch e .void ((s.batch e).foldl (voidEntry n) s) = u
  have queue : u.link.queue = s.link.queue := by subst hu; exact quiet
  have enabled (k : EventKind) : u.events.enabled k = s.events.enabled k := by subst hu; exact emptied.within.enabled k
  have epoch : u.align.epoch = s.align.epoch := by
    subst hu
    exact congrArg Alignment.epoch (foldl_keep State.align (voidEntry n) (fun t g => (voidEntry_keeps n g t).2.2.2.2.2.2.1) _ _)
  have told := setEvent_queue (k := .batchVoid) (s := u) e.val .none (by rw [enabled, only]) (by rwa [queue])
  have counted := (advance_tells .batchesVoided 1 (setEvent .batchVoid e.val .none u)).silent fun k hk => by
    rw [List.mem_singleton.mp hk, (setEvent_tells ..).within.enabled, enabled]
    exact off (by decide)
  rw [voidBatch_eq, hu, counted, told, queue, epoch]
  rfl

theorem foldl_voidBatch_queue (n : Epoch) (l : List Epoch) {s : State}
    (only : ∀ k, s.events.enabled k = true ↔ k = .batchVoid) (room : s.link.queue.length + l.length ≤ 24) :
    (l.foldl (fun t e => voidBatch n e t) s).link.queue = s.link.queue ++ l.map (voidNotice s.align.epoch) := by
  induction l generalizing s with
  | nil => simp
  | cons e l ih =>
    rw [List.length_cons] at room
    have first := voidBatch_queue n e only (by omega)
    obtain ⟨_, told⟩ := voidBatch_tells n e s
    rw [List.foldl_cons, ih (fun k => by rw [told.within.enabled, only]) (by rw [first]; simp; omega), first]
    simp

end Sys2Proof.Machine
end


section
/-!
PROOFS. The abort of a run and the entry to HOLDING, at a loss of link or pulses and at a pulse (R64, R103, R116, R156).
-/
namespace Sys2Proof.Machine

open Sys2Proof

/-! ## The abort of a run -/

theorem frameDue_tells (f : BusFrame) (s : State) : Tells [.counterHalf] [.unsentFrames] 1 s (frameDue f s) := by
  unfold frameDue
  split
  · exact advance_tells _ _ _
  · split <;> exact .of_same rfl rfl

/-- The events that an abort may set. -/
def abortKinds : List EventKind := [.planMissed, .counterHalf]

/-- The counters that it may advance. -/
def abortCounters : List Counter := [.plansMissed, .unsentFrames]

/-- The NOTICE of a missed plan. -/
def missedNotice (now : Option Epoch) (target : Epoch) : OutRecord :=
  .notice { event := .planMissed, subject := target.val, code := .none, epoch := now }

/-- The reports of an abort: an ANNOUNCE may be cut off, then PLAN_MISSED, then the counter. -/
theorem abortRun_stages {b : Bool} {s : State} {r : Run} (run : s.engine.run = some r) :
    ∃ u, Tells [.counterHalf] [.unsentFrames] (if b then 1 else 0) s u ∧ u.align = s.align ∧
      abortRun b s = advance .plansMissed 1 (setEvent .planMissed r.target.val .none u) := by
  refine ⟨_, ?_, ?_, by rw [abortRun, run]; rfl⟩
  · cases b
    · exact .of_same rfl rfl
    · exact (frameDue_tells _ _).after rfl rfl
  · cases b <;> simp [discardRun, setPrev, setBatch]

theorem abortRun_tells (b : Bool) (s : State) : Tells abortKinds abortCounters 3 s (abortRun b s) := by
  cases run : s.engine.run with
  | none =>
    rw [abortRun, run]
    exact .refl s
  | some r =>
    obtain ⟨u, framed, -, whole⟩ := abortRun_stages (b := b) run
    have first := framed.mono (ks' := abortKinds) (cs' := abortCounters) (m' := 1) (by decide) (by decide)
      (by cases b <;> decide)
    have set := (setEvent_tells .planMissed r.target.val .none u).mono (ks' := abortKinds) (cs' := abortCounters)
      (by decide) (by decide) (Nat.le_refl 1)
    have counted := (advance_tells .plansMissed 1 (setEvent .planMissed r.target.val .none u)).mono (ks' := abortKinds)
      (cs' := abortCounters) (by decide) (by decide) (Nat.le_refl 1)
    rw [whole]
    exact (first.trans set).trans counted

/-- With room the NOTICE of PLAN_MISSED is queued. -/
theorem abortRun_notice {b : Bool} {s : State} {r : Run} (run : s.engine.run = some r)
    (on : s.events.enabled .planMissed = true) (room : s.link.queue.length + (if b then 1 else 0) < 24) :
    missedNotice s.align.epoch r.target ∈ (abortRun b s).link.queue := by
  obtain ⟨u, framed, align, whole⟩ := abortRun_stages (b := b) run
  have length := framed.length
  have told := setEvent_queue (k := .planMissed) (s := u) r.target.val .none (by rwa [framed.within.enabled])
    (by omega)
  have counted := (advance_tells .plansMissed 1 (setEvent .planMissed r.target.val .none u)).within.records
    (missedNotice s.align.epoch r.target) (by rw [told, align]; simp [missedNotice]) rfl
  rw [whole]
  exact counted

/-! ## The entry to HOLDING, stage by stage -/

theorem enterHolding_effect (s : State) :
    (enterHolding s).tracking = (voidAllSent (abortRun false s)).tracking ∧
      (enterHolding s).contexts = (voidAllSent (abortRun false s)).contexts := by
  simp [enterHolding, emptyCarry, setPrev]

/-- The batches that an entry to HOLDING voids are those still SENT after the abort. -/
theorem isSent_abortRun (s : State) (e : Epoch) : (abortRun false s).isSent e ↔ s.voidedAtEntry e = true := by
  rw [State.isSent, abortRun_tracking]
  cases run : s.engine.run with
  | none => simp [State.voidedAtEntry, run]
  | some r =>
    by_cases same : ringIndex r.target = ringIndex e
    · simp [State.voidedAtEntry, run, same]
    · simp [State.voidedAtEntry, run, same, Table.get_set_ne _ _ (Ne.symm same)]

theorem abortRun_ringPlaced {s : State} (placed : s.RingPlaced) (b : Bool) : (abortRun b s).RingPlaced :=
  ringPlaced_law.change s _ (.abort s b) placed

theorem sentTargets_abortRun {s : State} (placed : s.RingPlaced) :
    (sentTargets (abortRun false s)).Perm s.voidedTargets := by
  obtain ⟨distinct, mem, -⟩ := sentTargets_spec (abortRun_ringPlaced placed false)
  refine (List.perm_ext_iff_of_nodup distinct ((List.nodup_finRange _).filter _)).mpr fun e => ?_
  rw [mem, isSent_abortRun]
  simp

theorem flatMap_filter_perm {α β : Type} [DecidableEq β] (key : α → β) (l : List β) (distinct : l.Nodup) (L : List α) :
    (l.flatMap fun e => L.filter fun g => key g == e).Perm (L.filter fun g => l.contains (key g)) := by
  induction l with
  | nil => simp
  | cons e l ih =>
    obtain ⟨new, rest⟩ := List.nodup_cons.mp distinct
    have split := List.filter_append_perm (fun g => key g == e) (L.filter fun g => (e :: l).contains (key g))
    rw [List.filter_filter, List.filter_filter] at split
    have mine : (L.filter fun g => (key g == e) && (e :: l).contains (key g)) = L.filter fun g => key g == e :=
      List.filter_congr fun g _ => by
        by_cases same : key g = e <;> simp [same]
    have others : (L.filter fun g => (!key g == e) && (e :: l).contains (key g)) = L.filter fun g => l.contains (key g) :=
      List.filter_congr fun g _ => by
        by_cases same : key g = e
        · simp [same, new]
        · simp [same]
    rw [mine, others] at split
    exact ((ih rest).append_left _).trans split

theorem voidedGrants_perm {s : State} (placed : s.RingPlaced) :
    ((sentTargets (abortRun false s)).flatMap (abortRun false s).batch).Perm s.voidedGrants := by
  obtain ⟨distinct, mem, -⟩ := sentTargets_spec (abortRun_ringPlaced placed false)
  have ogt : (abortRun false s).tracking.ogt = s.tracking.ogt := by
    rw [abortRun_tracking]
    split <;> rfl
  have perm := flatMap_filter_perm (fun g : OgtEntry => g.tag.epoch) _ distinct (abortRun false s).tracking.ogt
  have same : ((abortRun false s).tracking.ogt.filter fun g =>
      (sentTargets (abortRun false s)).contains g.tag.epoch) = s.voidedGrants := by
    rw [ogt, State.voidedGrants]
    refine List.filter_congr fun g _ => ?_
    rw [Bool.eq_iff_iff, List.contains_iff_mem, mem, isSent_abortRun]
  rw [same] at perm
  exact perm

theorem State.RedoReturned.perm {n : Epoch} {a b : List OgtEntry} {s : State} {redo : List RedoEntry}
    (h : s.RedoReturned n a redo) (perm : a.Perm b) : s.RedoReturned n b redo := by
  obtain ⟨sub, new, all⟩ := h
  refine ⟨sub, fun e he => ?_, fun g hg o origin opened early room =>
    all g (perm.mem_iff.mpr hg) o origin opened early (by rwa [perm.length_eq])⟩
  rcases new e he with old | ⟨g, hg, rest⟩
  · exact .inl old
  · exact .inr ⟨g, perm.mem_iff.mp hg, rest⟩

/-- The contexts, the OGT, the Batch Ring and the Redo List after the voids. -/
theorem enterHolding_tracking {s : State} (placed : s.RingPlaced) :
    s.TrackingVoided (now s) (enterHolding s).tracking ∧
      (s.FiguresBounded → ∀ i, ctx (enterHolding s) i = (ctx s i).afterVoid s.voidedGrants i) := by
  obtain ⟨distinct, mem, -⟩ := sentTargets_spec (abortRun_ringPlaced placed false)
  have voids := foldl_voidBatch_voids (now s) (sentTargets (abortRun false s)) distinct (abortRun false s)
  have ogt := foldl_voidBatch_ogt (now s) (sentTargets (abortRun false s)) (abortRun false s)
  have ring := foldl_voidBatch_ring (now s) (sentTargets (abortRun false s)) distinct fun e he => (mem e).mp he
  have whole : voidAllSent (abortRun false s) =
      (sentTargets (abortRun false s)).foldl (fun t e => voidBatch (now s) e t) (abortRun false s) := by
    simp only [voidAllSent, now, abortRun_keeps]
  have redo : (abortRun false s).tracking.redo = s.tracking.redo := by
    rw [abortRun_tracking]
    split <;> rfl
  have same (i : Index) : ctx (abortRun false s) i = ctx s i := ctx_congr (by simp) i
  rw [(enterHolding_effect s).1, whole]
  refine ⟨⟨fun r run => ?_, fun p free => ?_, ?_, ?_⟩, fun bounded i => ?_⟩
  · have missed : (abortRun false s).tracking.ring.get (ringIndex r.target) =
        { target := some r.target, status := .missed } := by
      rw [abortRun_tracking, run]
      simp
    rw [ring, missed, if_neg]
    rintro ⟨e, he, place⟩
    have sent := (mem e).mp he
    rw [State.isSent, place, missed] at sent
    cases sent
  · have kept : (abortRun false s).tracking.ring.get p = s.tracking.ring.get p := by
      rw [abortRun_tracking]
      cases run : s.engine.run with
      | none => rfl
      | some r => exact Table.get_set_ne _ _ (Ne.symm (free r run))
    rw [ring, kept]
    have sent : (∃ e ∈ sentTargets (abortRun false s), ringIndex e = p) ↔ (s.tracking.ring.get p).status = .sent := by
      constructor
      · rintro ⟨e, he, place⟩
        have sent := (mem e).mp he
        rw [State.isSent, place, kept] at sent
        rw [sent]
      · intro sent
        obtain ⟨e, target, place⟩ := placed p sent
        refine ⟨e, (mem e).mpr ?_, place⟩
        rw [State.isSent, place, kept, ← target, ← sent]
    simp only [sent]
  · rw [ogt]
    have ogt : (abortRun false s).tracking.ogt = s.tracking.ogt := by
      rw [abortRun_tracking]
      split <;> rfl
    rw [ogt]
    refine List.filter_congr fun g _ => congrArg _ ?_
    rw [Bool.eq_iff_iff, List.contains_iff_mem, mem, isSent_abortRun]
  · obtain ⟨sub, new, all⟩ := voids.redo.perm (voidedGrants_perm placed)
    rw [redo] at sub new all
    refine ⟨sub, new, fun g hg o origin opened => all g hg o origin (by rwa [same])⟩
  · have bounds (j : Index) : (ctx (abortRun false s) j).BacklogsBounded := by
      rw [same]
      exact bounded.backlogs j
    have contexts := voids.contexts bounds i
    rw [same, Context.afterVoid_perm (voidedGrants_perm placed)] at contexts
    rw [ctx_congr (enterHolding_effect s).2, whole]
    exact contexts

/-- After the entry no record of the Batch Ring is SENT. -/
theorem State.TrackingVoided.not_sent {n : Epoch} {s : State} {k : Tracking} (h : s.TrackingVoided n k) (p : Fin 16) :
    (k.ring.get p).status ≠ .sent := by
  obtain ⟨missed, others, -⟩ := h
  by_cases mine : ∃ r, s.engine.run = some r ∧ ringIndex r.target = p
  · obtain ⟨r, run, place⟩ := mine
    rw [← place, missed r run]
    simp
  · rw [others p fun r run place => mine ⟨r, run, place⟩]
    split
    · simp
    · next other => exact other

/-! ## The reports of the entry -/

/-- The events that an entry to HOLDING may set. -/
def holdKinds : List EventKind := abortKinds ++ voidKinds

/-- The counters that it may advance. -/
def holdCounters : List Counter := abortCounters ++ voidCounters

/-- An entry to HOLDING: the abort, the voids, a frame due, and the PLANs leave the queue. -/
theorem enterHolding_stages (s : State) :
    ∃ u, u.events = (voidAllSent (abortRun false s)).events ∧ u.link = (voidAllSent (abortRun false s)).link ∧
      enterHolding s = cutPlans (frameDue (announcement u (holdingTarget s) 0) u) := by
  refine ⟨_, ?_, ?_, rfl⟩ <;> rfl

/-- The voids of an entry. -/
theorem voidAllSent_abortRun (s : State) :
    voidAllSent (abortRun false s) =
      (sentTargets (abortRun false s)).foldl (fun t e => voidBatch (now s) e t) (abortRun false s) := by
  simp only [voidAllSent, now, abortRun_keeps]

theorem enterHolding_tells (s : State) :
    ∃ u m, Tells holdKinds holdCounters m s u ∧ enterHolding s = cutPlans u := by
  obtain ⟨u, events, link, whole⟩ := enterHolding_stages s
  have aborted := (abortRun_tells false s).mono (ks' := holdKinds) (cs' := holdCounters) (by decide) (by decide)
    (Nat.le_refl 3)
  obtain ⟨m, voided⟩ := foldl_voidBatch_tells (now s) (sentTargets (abortRun false s)) (abortRun false s)
  rw [← voidAllSent_abortRun] at voided
  have voided' := voided.mono (ks' := holdKinds) (cs' := holdCounters) (by decide) (by decide) (Nat.le_refl m)
  have framed := (frameDue_tells (announcement u (holdingTarget s) 0) u).mono (ks' := holdKinds) (cs' := holdCounters)
    (by decide) (by decide) (Nat.le_refl 1)
  exact ⟨_, _, (aborted.trans voided').trans (framed.after events link), whole⟩

/-- What an entry to HOLDING reports, with the room that its first NOTICE needs (R64, R103, R166). -/
structure State.EntryTells (s t : State) : Prop where
  missed : t.events.flag .planMissed = true ↔ s.events.flag .planMissed = true ∨ s.engine.run.isSome = true
  missedCount : t.events.counter .plansMissed =
    if s.engine.run.isSome then min 65535 (s.events.counter .plansMissed + 1) else s.events.counter .plansMissed
  missedNotice : ∀ r, s.engine.run = some r → s.events.enabled .planMissed = true → s.link.queue.length < 24 →
    missedNotice s.align.epoch r.target ∈ t.link.queue
  void : t.events.flag .batchVoid = true ↔ s.events.flag .batchVoid = true ∨ s.voidedTargets ≠ []
  voidCount : t.events.counter .batchesVoided =
    if s.voidedTargets = [] then s.events.counter .batchesVoided
    else min 65535 (s.events.counter .batchesVoided + s.voidedTargets.length)
  queue : (∀ k, s.events.enabled k = true ↔ k = .batchVoid) → s.link.queue.length + s.voidedTargets.length ≤ 24 →
    ∃ l : List Epoch,
      l.Perm s.voidedTargets ∧
        ((∃ m : Epoch, ∀ e ∈ l, (e - m).val ≤ 511) → l.Pairwise fun a b => 513 ≤ (a - b).val) ∧
        t.link.queue = s.link.queue.filter (fun r => !r.isPlan) ++ l.map (voidNotice s.align.epoch)

theorem enterHolding_reported {s : State} (placed : s.RingPlaced) : s.EntryTells (enterHolding s) := by
  obtain ⟨u, events, link, whole⟩ := enterHolding_stages s
  obtain ⟨-, -, sorted⟩ := sentTargets_spec (abortRun_ringPlaced placed false)
  have perm := sentTargets_abortRun placed
  have aborted := abortRun_tells false s
  have missed := abortRun_missed false s
  have framed := frameDue_tells (announcement u (holdingTarget s) 0) u
  obtain ⟨_, voided⟩ := foldl_voidBatch_tells (now s) (sentTargets (abortRun false s)) (abortRun false s)
  have voids := foldl_voidBatch_events (now s) (sentTargets (abortRun false s)) (abortRun false s)
  have queued := foldl_voidBatch_queue (now s) (sentTargets (abortRun false s)) (s := abortRun false s)
  have empty : sentTargets (abortRun false s) = [] ↔ s.voidedTargets = [] := by
    rw [← List.length_eq_zero_iff, perm.length_eq, List.length_eq_zero_iff]
  rw [← voidAllSent_abortRun] at voided voids queued
  generalize voidAllSent (abortRun false s) = v at *
  have flag {k : EventKind} (other : k ∉ [EventKind.counterHalf]) :
      (enterHolding s).events.flag k = v.events.flag k := by
    rw [whole, ← events]
    exact framed.within.flags k other
  have counter {c : Counter} (other : c ∉ [Counter.unsentFrames]) :
      (enterHolding s).events.counter c = v.events.counter c := by
    rw [whole, ← events]
    exact framed.within.counters c other
  have epoch : (abortRun false s).align.epoch = s.align.epoch := by simp
  exact
    { missed := by
        rw [flag (by decide), voided.within.flags _ (by decide), missed.1, Bool.or_eq_true]
      missedCount := by rw [counter (by decide), voided.within.counters _ (by decide), missed.2]
      missedNotice := fun r run on room => by
        have first := abortRun_notice (b := false) run on (by simpa using room)
        have kept := voided.within.records _ first rfl
        rw [← link] at kept
        have queued := framed.within.records _ kept rfl
        rw [whole]
        exact List.mem_filter.mpr ⟨queued, rfl⟩
      void := by
        rw [flag (by decide), voids.1, aborted.within.flags _ (by decide), Ne, empty]
      voidCount := by
        rw [counter (by decide), voids.2, aborted.within.counters _ (by decide), perm.length_eq]
        simp only [empty]
      queue := fun only room => by
        have off {k : EventKind} (other : k ≠ .batchVoid) : s.events.enabled k = false :=
          Bool.eq_false_iff.mpr fun on => other ((only k).mp on)
        have silent := aborted.silent fun k hk => off fun same => by subst same; revert hk; decide
        have voidsTold := queued (fun k => by rw [aborted.within.enabled, only]) (by rw [silent, perm.length_eq]; exact room)
        have quiet := framed.silent fun k hk => by
          rw [List.mem_singleton.mp hk]
          have same : u.events.enabled .counterHalf = v.events.enabled .counterHalf := by rw [events]
          rw [same, voided.within.enabled, aborted.within.enabled]
          exact off (by decide)
        refine ⟨_, perm, fun ⟨m, near⟩ => sorted m near, ?_⟩
        have cut : (enterHolding s).link.queue =
            (frameDue (announcement u (holdingTarget s) 0) u).link.queue.filter fun r => !r.isPlan := by rw [whole]; rfl
        have notices : ∀ l : List Epoch, ((l.map (voidNotice s.align.epoch)).filter fun r => !r.isPlan) =
            l.map (voidNotice s.align.epoch) := fun l =>
          List.filter_eq_self.mpr fun r hr => by
            obtain ⟨e, -, rfl⟩ := List.mem_map.mp hr
            rfl
        rw [cut, quiet, link, voidsTold, silent, epoch, List.filter_append, notices] }

/-- Reports before the entry and a quiet end change nothing in what the entry reports. -/
theorem State.EntryTells.reported {ks : List EventKind} {s u v t : State} (entry : u.EntryTells v)
    (before : Tells ks [] 3 s u) (kinds : .planMissed ∉ ks ∧ .batchVoid ∉ ks)
    (run : u.engine.run = s.engine.run) (ring : u.tracking.ring = s.tracking.ring) (events : t.events = v.events)
    (queue : t.link.queue = v.link.queue) (epoch : t.align.epoch = u.align.epoch) : s.EntryReported t := by
  have targets : u.voidedTargets = s.voidedTargets := by
    refine List.filter_congr fun e _ => ?_
    simp only [State.voidedAtEntry, run, ring]
  have length := before.length
  refine ⟨?_, ?_, fun r hr on room => ?_, ?_, ?_, fun only room => ?_⟩
  · rw [events, entry.missed, before.within.flags _ kinds.1, run]
  · rw [events, entry.missedCount, before.within.counters _ List.not_mem_nil, run]
  · rw [queue, epoch]
    exact entry.missedNotice r (run.trans hr) (by rwa [before.within.enabled]) (by omega)
  · rw [events, entry.void, before.within.flags _ kinds.2, targets]
  · rw [events, entry.voidCount, before.within.counters _ List.not_mem_nil, targets]
  · have silent := before.silent fun k hk => Bool.eq_false_iff.mpr fun on => kinds.2 ((only k).mp on ▸ hk)
    have told := entry.queue (fun k => by rw [before.within.enabled, only]) (by rwa [silent, targets])
    rw [silent, targets] at told
    rw [queue, epoch]
    exact told

/-! ## What the entry leaves of the link -/

theorem enterHolding_link (s : State) :
    (∀ p, OutRecord.plan p ∉ (enterHolding s).link.queue) ∧
      s.link.queue.filter (fun r => !r.isPlan) <+: (enterHolding s).link.queue ∧
      (enterHolding s).link =
        { s.link with
          queue := (enterHolding s).link.queue
          lastOut :=
            match s.link.queue with
            | .plan p :: _ => some (.cut p (~~~checkWord (coveredBytes 0x81 (planBytes p))))
            | _ => s.link.lastOut } := by
  obtain ⟨u, m, told, whole⟩ := enterHolding_tells s
  obtain ⟨ns, queue, -, -⟩ := told.queued
  have cut : (cutPlans u).link.queue = u.link.queue.filter fun r => !r.isPlan := rfl
  rw [whole]
  refine ⟨fun p hp => ?_, ?_, ?_⟩
  · rw [cut] at hp
    simpa [OutRecord.isPlan] using (List.mem_filter.mp hp).2
  · rw [cut, queue, List.filter_append]
    exact List.prefix_append _ _
  · have out : (match u.link.queue.head? with
          | some (.plan p) => some (LinkOutput.cut p (cutCheck p))
          | _ => u.link.lastOut) =
        match s.link.queue with
        | .plan p :: _ => some (LinkOutput.cut p (~~~checkWord (coveredBytes 0x81 (planBytes p))))
        | _ => s.link.lastOut := by
      rw [told.link, queue]
      cases s.link.queue with
      | nil => cases ns <;> rfl
      | cons r rest => cases r <;> rfl
    rw [← out]
    show ({ u.link with queue := _, lastOut := _ } : LinkPort) = _
    rw [told.link]
    rfl

/-! ## The loss of the link or of the pulses -/

/-- Reports before the entry leave the PLAN on the line at the head of the queue. -/
theorem Tells.lastOut {ks : List EventKind} {cs : List Counter} {m : Nat} {s u : State} (told : Tells ks cs m s u) :
    (match u.link.queue with
      | .plan p :: _ => some (LinkOutput.cut p (~~~checkWord (coveredBytes 0x81 (planBytes p))))
      | _ => u.link.lastOut) =
      match s.link.queue with
      | .plan p :: _ => some (LinkOutput.cut p (~~~checkWord (coveredBytes 0x81 (planBytes p))))
      | _ => s.link.lastOut := by
  obtain ⟨ns, queue, -, -⟩ := told.queued
  rw [told.link, queue]
  cases s.link.queue with
  | nil => cases ns <;> rfl
  | cons r rest => cases r <;> rfl

/-- What an entry to HOLDING in OPERATING makes of a state, its reports among it, after an event that brings it. -/
structure State.Held (s t : State) : Prop where
  align : t.align = { s.align with opState := .holding }
  engine : t.engine = { s.engine with run := none, carrySource := none, carryTiles := [] }
  tracking : s.TrackingVoided (now s) t.tracking
  reported : s.EntryReported t
  contexts : s.FiguresBounded → ∀ i, ctx t i = (ctx s i).afterVoid s.voidedGrants i
  power : t.power = { s.power with pPrev := 0 }
  edge : t.edge = { ownSet := 0, holdDown := [], counter := 0, demand := 0, subBands := 0 }
  noPlan : ∀ p, OutRecord.plan p ∉ t.link.queue
  others : s.link.queue.filter (fun r => !r.isPlan) <+: t.link.queue
  line : t.link.lost = s.link.lost ∧ t.link.idleRun = s.link.idleRun ∧ t.link.fifo = s.link.fifo ∧
    t.link.ready = s.link.ready
  lastOut : t.link.lastOut =
    match s.link.queue with
    | .plan p :: _ => some (.cut p (~~~checkWord (coveredBytes 0x81 (planBytes p))))
    | _ => s.link.lastOut

theorem setEvent_held {k : EventKind} (n : Nat) {s : State} (kind : k ≠ .planMissed ∧ k ≠ .batchVoid)
    (op : s.align.opState = .operating) (placed : s.RingPlaced) :
    s.Held (holdIfOperating (setEvent k n .none s)) ∧
      (holdIfOperating (setEvent k n .none s)).events.flag k = true := by
  have told := setEvent_tells k n .none s
  generalize hu : setEvent k n .none s = u at told
  have align : u.align = s.align := by rw [← hu]; simp
  have engine : u.engine = s.engine := by rw [← hu]; simp
  have sameTracking : u.tracking = s.tracking := by rw [← hu]; simp
  have contexts : u.contexts = s.contexts := by rw [← hu]; simp
  have power : u.power = s.power := by rw [← hu]; simp
  have grants : u.voidedGrants = s.voidedGrants := by
    simp only [State.voidedGrants, sameTracking]
    refine List.filter_congr fun g _ => ?_
    simp only [State.voidedAtEntry, engine, sameTracking]
  have placed' : u.RingPlaced := by simpa only [State.RingPlaced, sameTracking] using placed
  have entered : holdIfOperating u = enterHolding u := by simp [holdIfOperating, align, op]
  obtain ⟨writesEngine, writesPower, writesEdge, writesAlign⟩ := enterHolding_writes u
  obtain ⟨tracking, figures⟩ := enterHolding_tracking placed'
  obtain ⟨noPlan, others, link⟩ := enterHolding_link u
  have reported := enterHolding_reported placed'
  obtain ⟨v, m, toldEntry, whole⟩ := enterHolding_tells u
  obtain ⟨ns, queue, -, -⟩ := told.queued
  have voided : s.TrackingVoided (now u) (enterHolding u).tracking := by
    simpa only [State.TrackingVoided, State.RedoReturned, grants, engine, sameTracking, State.voidedAtEntry,
      ctx_congr contexts] using tracking
  rw [entered]
  refine ⟨⟨by rw [writesAlign, align], by rw [writesEngine, engine], ?_, ?_, fun bounded i => ?_, by rw [writesPower, power],
    writesEdge, noPlan, ?_, ?_, ?_⟩, ?_⟩
  · rwa [show now u = now s by simp only [now, align]] at voided
  · refine reported.reported (told.mono (List.Subset.refl _) (List.Subset.refl _) (by decide))
      ⟨by simp [kind.1.symm], by simp [kind.2.symm]⟩ (by rw [engine]) (by rw [sameTracking]) rfl rfl (by rw [writesAlign])
  · rw [figures (by simpa only [State.FiguresBounded, ctx_congr contexts] using bounded), grants, ctx_congr contexts]
  · refine List.IsPrefix.trans ?_ others
    rw [queue, List.filter_append]
    exact List.prefix_append _ _
  · rw [link, told.link]
    exact ⟨rfl, rfl, rfl, rfl⟩
  · rw [link]
    exact told.lastOut
  · have set : u.events.flag k = true := by rw [← hu]; simp
    rw [whole]
    exact toldEntry.within.kept k set

/-- Settles O28, by what an entry to HOLDING makes of a state. -/
theorem lossOfLinkOrPulses : Obligations.LossOfLinkOrPulses := by
  refine ⟨fun s idle => ?_, fun c s idle op placed loss => ?_⟩
  · have link : exec .linkLoss s = .next (loseLink s) := by
      show Host.Outcome.next (loseLink (finishPulse s)) = _
      rw [finishPulse_idle idle]
    have pulses : exec .epochLoss s = .next (loseEpoch s) := by
      show Host.Outcome.next (loseEpoch (finishPulse s)) = _
      rw [finishPulse_idle idle]
    rw [link, pulses]
    refine ⟨fun lost => by simp [loseLink, lost], fun valid op => ?_, ?_, ?_⟩
    · simp [loseLink, valid, holdIfOperating, op, Config.linkLossTime]
    · rintro (watch | watch) <;> simp [loseEpoch, watch]
    · rintro (watch | watch) op <;> simp [loseEpoch, watch, holdIfOperating, op, setWatch]
  · rcases loss with ⟨rfl, valid⟩ | ⟨rfl, watch⟩
    · obtain ⟨held, flag⟩ := setEvent_held (k := .linkLoss) (epochField s.align.epoch)
        (s := { s with link := { s.link with lost := true, timer := Config.linkLossTime, idleRun := 0 } }) (by decide)
        op placed
      have taken : exec .linkLoss s = .next (holdIfOperating (setEvent .linkLoss (epochField s.align.epoch) .none
          { s with link := { s.link with lost := true, timer := Config.linkLossTime, idleRun := 0 } })) := by
        show Host.Outcome.next (loseLink (finishPulse s)) = _
        rw [finishPulse_idle idle, loseLink, valid, if_neg Bool.false_ne_true]
      exact ⟨_, taken, by rw [held.align], by rw [held.align], by rw [held.align], by rw [held.align],
        fun _ => ⟨held.line.1, held.line.2.1, by rw [held.align], flag⟩, nofun, held.engine, held.tracking,
        held.reported, held.tracking.not_sent, held.contexts, held.power, held.edge, held.noPlan, held.others,
        held.lastOut, held.line.2.2.1, by simp, by simp⟩
    · obtain ⟨held, flag⟩ := setEvent_held (k := .epochLoss) (epochField s.align.epoch) (s := setWatch .lost s)
        (by decide) op placed
      have taken : exec .epochLoss s =
          .next (holdIfOperating (setEvent .epochLoss (epochField s.align.epoch) .none (setWatch .lost s))) := by
        show Host.Outcome.next (loseEpoch (finishPulse s)) = _
        rw [finishPulse_idle idle, loseEpoch]
        rcases watch with watch | watch <;> rw [watch]
      exact ⟨_, taken, by rw [held.align], by rw [held.align]; rfl, by rw [held.align]; rfl, by rw [held.align]; rfl,
        nofun, fun _ => ⟨held.line.1, by rw [held.align]; rfl, flag⟩, held.engine, held.tracking,
        held.reported, held.tracking.not_sent, held.contexts, held.power, held.edge, held.noPlan, held.others,
        held.lastOut, held.line.2.2.1, by simp [setWatch], by simp [setWatch]⟩

end Sys2Proof.Machine
end


section
/-!
PROOFS. What each part of a pulse's work reports, and what a part that is not due leaves (R111).
-/
namespace Sys2Proof.Machine

open Sys2Proof

/-! ## The reports of the parts -/

/-- The events that a part of a pulse's work may set. -/
def taskKinds : PulseTask → List EventKind
  | .entry => holdKinds
  | .decide => [.peerIncompatible, .modeSet]
  | .start => [.planMissed, .counterHalf, .shortage]
  | .timeouts => [.attachTimeout]
  | .absent => [.peerAbsent]
  | .batchVoid => voidKinds
  | .grantExpiry => grantKinds
  | .redoDrop => redoKinds
  | .announce _ _ | .ability _ _ => [.duplicateStation, .peerAbsent, .peerIncompatible, .peerMisaligned]
  | .counts | .dormancy | .ageing | .stale | .holdDown | .update => []

/-- The counters that a part of a pulse's work may advance. -/
def taskCounters : PulseTask → List Counter
  | .entry => holdCounters
  | .start => abortCounters
  | .batchVoid => voidCounters
  | .grantExpiry | .redoDrop => redoCounters
  | .decide | .counts | .timeouts | .dormancy | .ageing | .stale | .absent | .holdDown | .update | .announce _ _
  | .ability _ _ => []

section Relations

variable {ks : List EventKind} {cs : List Counter} {s t u : State}

/-- A change that reports nothing, and then reports. -/
theorem Says.after (h : Says ks cs t u) (events : t.events = s.events) (link : t.link = s.link) : Says ks cs s u :=
  (Says.of_same (ks := ks) (cs := cs) events link).trans h

/-- A report, and then a change that reports nothing. -/
theorem Says.before (h : Says ks cs s t) (events : u.events = t.events) (link : u.link = t.link) : Says ks cs s u :=
  h.trans (.of_same events link)

theorem setEvent_says {k : EventKind} (mem : k ∈ ks) (n : Nat) (c : Code) (s : State) : Says ks cs s (setEvent k n c s) :=
  (setEvent_tells k n c s).within.mono (by simpa using mem) (List.nil_subset _)

end Relations

theorem cutPlans_says (s : State) : Says [] [] s (cutPlans s) where
  flags _ _ := rfl
  kept _ h := h
  counters _ _ := rfl
  grown _ := Nat.min_le_right _ _
  remainder _ := rfl
  enables := rfl
  records _ hr plan := List.mem_filter.mpr ⟨hr, by rw [plan]; rfl⟩
  plans _ hp := (List.mem_filter.mp hp).1
  inbound := ⟨rfl, rfl, rfl⟩

theorem enterHolding_says (s : State) : Says holdKinds holdCounters s (enterHolding s) := by
  obtain ⟨u, m, told, whole⟩ := enterHolding_tells s
  rw [whole]
  exact told.within.trans ((cutPlans_says u).mono (List.nil_subset _) (List.nil_subset _))

theorem holdIfOperating_says (s : State) : Says holdKinds holdCounters s (holdIfOperating s) := by
  unfold holdIfOperating
  split
  · exact enterHolding_says s
  · exact .refl s

theorem writePeer_says (j : Station) (p : Peer) (s : State) : Says [.peerIncompatible] [] s (writePeer j p s) := by
  unfold writePeer
  split
  · exact (setEvent_says (by decide) _ _ _).after rfl rfl
  · exact .of_same rfl rfl

theorem enterOperating_says (s : State) : Says [.peerIncompatible, .modeSet] [] s (enterOperating s) := by
  have marked : Says [.peerIncompatible, .modeSet] [] s ((decideMode s.config s.peers).excluded.foldl excludePeer s) :=
    Says.foldl _ (fun t j _ => (writePeer_says j _ t).mono (by decide) (List.nil_subset _)) s
  have set (t : State) (n : Nat) (c : Code) : Says [.peerIncompatible, .modeSet] [] t (setEvent .modeSet n c t) :=
    setEvent_says (by decide) _ _ _
  exact (marked.trans ((set _ _ _).after rfl rfl)).before rfl rfl

theorem testListening_says (s : State) : Says [.peerIncompatible, .modeSet] [] s (testListening s) := by
  unfold testListening
  split
  · exact enterOperating_says s
  · exact .refl s

theorem beginRun_says (e : Epoch) (m : Mode) (s : State) : Says [.shortage] [] s (beginRun e m s) := by
  have computed : Says [.shortage] [] s (computeAllowance e s) := by
    unfold computeAllowance
    dsimp only
    split
    · exact (setEvent_says (by decide) _ _ _).after rfl rfl
    · exact .of_same rfl rfl
  exact computed.before rfl rfl

theorem startRun_says (s : State) : Says [.planMissed, .counterHalf, .shortage] abortCounters s (startRun s) := by
  have aborted := (abortRun_tells true s).within.mono (ks' := [.planMissed, .counterHalf, .shortage])
    (cs' := abortCounters) (by decide) (by decide)
  unfold startRun
  split
  · dsimp only
    split
    · exact aborted.trans ((beginRun_says _ _ _).mono (by decide) (List.nil_subset _))
    · exact aborted
  · exact .refl s

theorem absentPeer_says (j : Station) (s : State) : Says [.peerAbsent] [] s (absentPeer j s) := by
  unfold absentPeer
  dsimp only
  split
  · exact (setEvent_says (by decide) _ _ _).after rfl rfl
  · exact .refl s

theorem stalePeer_says (j : Station) (s : State) : Says [] [] s (stalePeer j s) := by
  unfold stalePeer
  dsimp only
  split <;> exact .of_same rfl rfl

theorem passDue_says (j : Station) (s : State) : Says [.peerAbsent] [] s (passDue j s) := by
  unfold passDue
  split
  · exact ((stalePeer_says j s).mono (List.nil_subset _) (List.Subset.refl _)).trans (absentPeer_says j _)
  · exact .refl s

theorem takeFrame_says (j : Station) (changed : Bool) (p : Peer) (s : State) :
    Says [.peerIncompatible, .peerMisaligned] [] s (takeFrame j changed p s) := by
  have written : Says [.peerIncompatible, .peerMisaligned] [] s (writeHeard j p s) := by
    have first := (writePeer_says j p s).mono (ks' := [.peerIncompatible, .peerMisaligned]) (by decide)
      (List.Subset.refl _)
    unfold writeHeard
    dsimp only
    split
    · exact first.trans (setEvent_says (by decide) _ _ _)
    · exact first
  unfold takeFrame unsettle
  split
  · exact written.before rfl rfl
  · exact written

/-- The events that a frame from the line may set in the Peer Table. -/
def frameKinds : List EventKind := [.duplicateStation, .peerAbsent, .peerIncompatible, .peerMisaligned]

theorem hearFrame_says (j : Station) (changed : State → Bool) (p : State → Peer) (s : State) :
    Says frameKinds [] s
      (if j = s.align.station then duplicateStation s
      else takeFrame j (changed (passDue j s)) (p (passDue j s)) (passDue j s)) := by
  split
  · exact setEvent_says (by decide) _ _ _
  · exact ((passDue_says j s).mono (by decide) (List.Subset.refl _)).trans
      ((takeFrame_says _ _ _ _).mono (by decide) (List.Subset.refl _))

theorem whenHearing_says {hear : State → State} (h : ∀ s, Says frameKinds [] s (hear s)) (s : State) :
    Says frameKinds [] s (whenHearing hear s) := by
  unfold whenHearing
  split
  · split
    · exact .of_same rfl rfl
    · exact (h _).after rfl rfl
  · exact .refl s

theorem voidAtTarget_says (n : Epoch) (s : State) : Says voidKinds voidCounters s (voidAtTarget n s) := by
  unfold voidAtTarget
  split
  · exact (voidBatch_tells n n s).choose_spec.within
  · exact .refl s

/-- What a part of a pulse's work reports. -/
theorem takeTask_says (k : PulseTask) (s : State) : Says (taskKinds k) (taskCounters k) s (takeTask s k) := by
  cases k with
  | entry =>
    show Says _ _ s (takeEntry s)
    unfold takeEntry
    split
    · exact (holdIfOperating_says _).after rfl rfl
    · exact .refl s
  | decide =>
    show Says _ _ s (takeDecide s)
    unfold takeDecide
    split
    · exact (testListening_says _).after rfl rfl
    · exact .refl s
  | start =>
    show Says _ _ s (takeStart s)
    unfold takeStart
    split
    · exact (startRun_says _).after rfl rfl
    · exact .refl s
  | timeouts =>
    refine Says.foldl _ (fun t i _ => ?_) s
    unfold timeoutContext
    split
    · exact (setEvent_says (by decide) _ _ _).after rfl rfl
    · exact .refl t
  | absent => exact Says.foldl _ (fun t j _ => absentPeer_says j t) s
  | batchVoid =>
    show Says _ _ s (takeVoid s)
    unfold takeVoid
    split
    · dsimp only
      split
      · exact (voidAtTarget_says _ _).after rfl rfl
      · exact .of_same rfl rfl
    · exact .refl s
  | grantExpiry =>
    have expired (n : Epoch) (t : State) : Says grantKinds redoCounters t (expireGrants n t) :=
      Says.foldl _ (fun u g _ => (failEntry_tells u g).within) t
    show Says _ _ s (takeExpiry s)
    unfold takeExpiry
    split
    · dsimp only
      split
      · exact (expired _ _).after rfl rfl
      · exact .of_same rfl rfl
    · exact .refl s
  | redoDrop =>
    have dropped (n : Epoch) (t : State) : Says redoKinds redoCounters t (dropDeadlines n t) :=
      (Says.foldl _ (fun u e _ => (dropGrant_tells (by decide) .deadline e.context e.bytes u).within) _).after rfl rfl
    show Says _ _ s (takeDrop s)
    unfold takeDrop
    split
    · dsimp only
      split
      · exact (dropped _ _).after rfl rfl
      · exact .of_same rfl rfl
    · exact .refl s
  | announce f b => exact whenHearing_says (fun t => hearFrame_says f.station
      (fun u => (u.peers.records.get f.station).state == .absent) (announcedPeer f b) t) s
  | ability f b => exact whenHearing_says (fun t => hearFrame_says f.station
      (fun u => (u.peers.records.get f.station).state == .absent ||
        (u.peers.records.get f.station).ability != some (abilityWord f)) (abilityPeer f b) t) s
  | counts | dormancy | ageing | stale | holdDown | update => exact .of_same (by simp [takeTask]) (by simp [takeTask])

/-! ## Parts that are not due -/

/-- The part is due: it has a mark in the pulse's work, and the mark stands; a part without a mark is always due. -/
def PulseWork.due (w : PulseWork) : PulseTask → Bool
  | .entry => w.entry
  | .decide => w.decide
  | .start => w.start
  | .counts => w.counts
  | .ageing => w.ageing
  | .batchVoid => w.batchVoid
  | .grantExpiry => w.grantExpiry
  | .redoDrop => w.redoDrop
  | .holdDown => w.holdDown
  | .update => w.update
  | .timeouts | .dormancy | .stale | .absent | .announce _ _ | .ability _ _ => true

/-- A part that is not due changes nothing. -/
theorem takeTask_notDue {k : PulseTask} {s : State} (h : s.pulse.due k = false) : takeTask s k = s := by
  cases k <;> simp only [PulseWork.due, Bool.true_eq_false] at h <;>
    simp [takeTask, takeEntry, takeDecide, takeStart, takeCounts, takeAgeing, takeVoid, takeExpiry, takeDrop, takeHoldDown,
      takeUpdate, h]

/-- The marks of a pulse's work after a part is taken: its own is gone, and with an update event that of the hold-downs. -/
def PulseWork.taken (w : PulseWork) : PulseTask → PulseWork
  | .entry => { w with entry := false }
  | .decide => { w with decide := false }
  | .start => { w with start := false }
  | .counts => { w with counts := false }
  | .ageing => { w with ageing := false }
  | .batchVoid => { w with batchVoid := false }
  | .grantExpiry => { w with grantExpiry := false }
  | .redoDrop => { w with redoDrop := false }
  | .holdDown => { w with holdDown := false }
  | .update => if w.update then { w with update := false, holdDown := false } else w
  | .timeouts | .dormancy | .stale | .absent | .announce _ _ | .ability _ _ => w

theorem takeTask_pulse (k : PulseTask) (s : State) : (takeTask s k).pulse = s.pulse.taken k := by
  by_cases due : s.pulse.due k = true
  · cases k with
    | announce | ability => exact whenHearing_pulse (fun t => by simp) s
    | update =>
      have held : (takeHoldDown { s with pulse := { s.pulse with update := false } }).pulse =
          { s.pulse with update := false, holdDown := false } := by
        unfold takeHoldDown
        dsimp only
        split
        · split <;> simp [expireHoldDown]
        · next off =>
          have : s.pulse.holdDown = false := by simpa using off
          simp [← this]
      simp only [PulseWork.due] at due
      simp only [takeTask, takeUpdate, due, if_true, PulseWork.taken]
      split
      · exact held
      · exact held
    | timeouts | dormancy | stale | absent => simp [takeTask, PulseWork.taken]
    | entry | decide | start | counts | ageing | batchVoid | grantExpiry | redoDrop | holdDown =>
      simp only [PulseWork.due] at due
      simp only [takeTask, takeEntry, takeDecide, takeStart, takeCounts, takeAgeing, takeVoid, takeExpiry, takeDrop,
        takeHoldDown, due, if_true, PulseWork.taken]
      try split
      all_goals simp [expireHoldDown]
  · have off : s.pulse.due k = false := by simpa using due
    rw [takeTask_notDue off]
    cases k <;> simp only [PulseWork.due, Bool.true_eq_false] at off <;> simp [PulseWork.taken, ← off]

/-- No part makes another due. -/
theorem PulseWork.due_taken {w : PulseWork} {j k : PulseTask} (h : (w.taken k).due j = true) : w.due j = true := by
  cases k with
  | update =>
    by_cases on : w.update = true
    · rw [show w.taken .update = { w with update := false, holdDown := false } from if_pos on] at h
      cases j <;> simp_all [due]
    · rwa [show w.taken .update = w from if_neg on] at h
  | timeouts | dormancy | stale | absent | announce | ability => exact h
  | entry | decide | start | counts | ageing | batchVoid | grantExpiry | redoDrop | holdDown =>
    cases j <;> simp_all [due, taken]

end Sys2Proof.Machine
end


section
/-!
PROOFS. The lateness of a context, its uplink bar, and the judgement of a pulse by the watch (R37, R38, R153).
-/
namespace Sys2Proof.Machine

open Sys2Proof

/-! ## The least cover -/

theorem le_ceilDiv_mul {b : Nat} (hb : 0 < b) (a : Nat) : a ≤ ceilDiv a b * b := by
  have := Nat.div_add_mod (a + b - 1) b
  have := Nat.mod_lt (a + b - 1) hb
  rw [ceilDiv, Nat.mul_comm]
  omega

theorem ceilDiv_le {a b n : Nat} (hb : 0 < b) (h : a ≤ n * b) : ceilDiv a b ≤ n := by
  rw [ceilDiv, Nat.div_le_iff_le_mul_add_pred hb, Nat.mul_comm]
  omega

theorem ceilDiv_mono {a a' b : Nat} (h : a ≤ a') : ceilDiv a b ≤ ceilDiv a' b := Nat.div_le_div_right (by omega)

/-! ## The uplink bar of a context -/

/-- A context is barred, by its range or its lateness (R38). -/
def State.bars (s : State) (c : Context) : Bool := rangeBars s c || latenessBars s c

/-- A context passes from no to yes. -/
def State.turnsBar (s : State) (i : Index) : Bool := s.bars (ctx s i) && !(ctx s i).ulBarred

/-- UL_BARRED for a context, with the code its figures in `s` give. -/
def barEvent (s u : State) (i : Index) : State :=
  setEvent .ulBarred i.val (if rangeBars s (ctx s i) then .range else .lateness) u

theorem deriveBar_eq (i : Index) (s : State) :
    deriveBar i s =
      { (if s.turnsBar i then barEvent s s i else s) with
        contexts := s.contexts.set i { ctx s i with ulBarred := s.bars (ctx s i) } } := by
  have written : deriveBar i s =
      if s.turnsBar i then barEvent s (setCtx i { ctx s i with ulBarred := s.bars (ctx s i) } s) i
      else setCtx i { ctx s i with ulBarred := s.bars (ctx s i) } s := rfl
  rw [written]
  split <;> rfl

/-- The tests read the configuration and the slot time alone. -/
theorem bars_congr {s t : State} (config : t.config = s.config) (align : t.align = s.align) (c : Context) :
    rangeBars t c = rangeBars s c ∧ t.bars c = s.bars c := by
  have slot : slotTime t = slotTime s := by rw [slotTime, slotTime, align]
  simp only [State.bars, rangeBars, latenessBars, config, slot, and_self]

theorem foldl_barEvent_contexts (s : State) (l : List Index) (u : State) (C : Table Context 256) :
    l.foldl (barEvent s) { u with contexts := C } = { l.foldl (barEvent s) u with contexts := C } := by
  induction l generalizing u with
  | nil => rfl
  | cons i l ih => exact ih (barEvent s u i)

/-- The derivation for several contexts, one after another. -/
theorem foldl_deriveBar (s : State) (l : List Index) (distinct : l.Nodup) {t : State} (config : t.config = s.config)
    (align : t.align = s.align) (same : ∀ i ∈ l, ctx t i = ctx s i) :
    ∃ C : Table Context 256,
      l.foldl (fun t i => deriveBar i t) t = { (l.filter s.turnsBar).foldl (barEvent s) t with contexts := C } ∧
        ∀ i, C.get i = if i ∈ l then { ctx s i with ulBarred := s.bars (ctx s i) } else ctx t i := by
  induction l generalizing t with
  | nil => exact ⟨t.contexts, rfl, fun i => by simp [ctx]⟩
  | cons i l ih =>
    obtain ⟨new, rest⟩ := List.nodup_cons.mp distinct
    have here := same i List.mem_cons_self
    obtain ⟨range, bars⟩ := bars_congr config align (ctx t i)
    have turns : t.turnsBar i = s.turnsBar i := by rw [State.turnsBar, State.turnsBar, bars, here]
    have event : barEvent t t i = barEvent s t i := by rw [barEvent, barEvent, range, here]
    have first : deriveBar i t =
        { (if s.turnsBar i then barEvent s t i else t) with
          contexts := t.contexts.set i { ctx s i with ulBarred := s.bars (ctx s i) } } := by
      rw [deriveBar_eq, turns, event, bars, here]
    obtain ⟨C, whole, figures⟩ := ih rest (t := deriveBar i t) (by simpa using config) (by simpa using align)
      fun j hj => by
        rw [first]
        have apart : j ≠ i := fun h => new (by rwa [h] at hj)
        exact (Table.get_set_ne _ _ apart).trans (same j (List.mem_cons_of_mem _ hj))
    refine ⟨C, ?_, fun j => ?_⟩
    · rw [List.foldl_cons, whole, first, foldl_barEvent_contexts, List.filter_cons]
      split <;> rfl
    · rw [figures]
      by_cases mine : j = i
      · subst mine
        rw [if_neg new, if_pos List.mem_cons_self, first]
        exact Table.get_set_self _ _ _
      · have other : ctx (deriveBar i t) j = ctx t j := by
          rw [first]
          exact Table.get_set_ne _ _ mine
        rw [other]
        simp [mine]

/-- The contexts that are not FREE and pass to yes, in ascending order. -/
def State.turned (s : State) : List Index :=
  (List.finRange 256).filter fun i => decide ((ctx s i).state ≠ .free) && s.bars (ctx s i) && !(ctx s i).ulBarred

theorem deriveAllBars_eq (s : State) :
    ∃ C : Table Context 256,
      deriveAllBars s = { s.turned.foldl (barEvent s) s with contexts := C } ∧
        ∀ i, C.get i = if (ctx s i).state = .free then ctx s i else { ctx s i with ulBarred := s.bars (ctx s i) } := by
  obtain ⟨C, whole, figures⟩ := foldl_deriveBar s (s.contexts.positions fun c => c.state != .free)
    (Table.positions_nodup ..) rfl rfl fun _ _ => rfl
  have turned : (s.contexts.positions fun c => c.state != .free).filter s.turnsBar = s.turned := by
    rw [Table.positions_eq, List.filter_filter]
    refine List.filter_congr fun i _ => ?_
    rw [Bool.and_comm]
    rw [State.turnsBar, Bool.and_assoc]
    refine congrArg (· && (s.bars (ctx s i) && !(ctx s i).ulBarred)) (Bool.eq_iff_iff.mpr ?_)
    rw [bne_iff_ne, decide_eq_true_eq]
    rfl
  rw [turned] at whole
  refine ⟨C, whole, fun i => ?_⟩
  have mem : (i ∈ s.contexts.positions fun c => c.state != .free) ↔ ¬(ctx s i).state = .free := by
    rw [Table.mem_positions, bne_iff_ne]
    rfl
  rw [figures]
  by_cases free : (ctx s i).state = .free
  · rw [if_pos free, if_neg fun h => mem.mp h free]
  · rw [if_neg free, if_pos (mem.mpr free)]

theorem foldl_barEvent_flag (s : State) (l : List Index) (u : State) :
    (l.foldl (barEvent s) u).events.flag .ulBarred = true ↔ u.events.flag .ulBarred = true ∨ l ≠ [] := by
  induction l generalizing u with
  | nil => simp
  | cons i l ih => simp [ih, barEvent]

/-! ## The judgement of a pulse -/

theorem watchFaults_iff (interval : Nat) (a : Alignment) : watchFaults interval a = true ↔ a.Faults interval := by
  unfold watchFaults Alignment.Faults
  cases a.watch <;> simp

/-- The watch and the period after the judgement; of the rest of Alignment Control it writes at most the timing. -/
theorem judgeWatch_align (interval : Nat) (s : State) :
    (judgeWatch interval s).align =
      { s.align with
        watch := (watchAfter s.align interval).1
        period := (watchAfter s.align interval).2
        timing := (judgeWatch interval s).align.timing } := by
  unfold judgeWatch watchAfter
  cases watch : s.align.watch with
  | unset =>
    cases timing : s.align.timing with
    | true =>
      cases measured : measuredPeriod interval with
      | some p => simp [setPeriod, timing]
      | none => simp [epochFault, ← watch, ← timing]
    | false => simp [← watch]
  | regular | faulty =>
    by_cases regular : intervalRegular s.align interval = true <;>
      simp [regular, epochFault, setWatch, ← watch]
  | lost => simp [setWatch]

theorem deriveAllBars_says (s : State) : Says [.ulBarred] [] s (deriveAllBars s) := by
  refine Says.foldl _ (fun t i _ => ?_) s
  unfold deriveBar
  dsimp only
  split
  · exact (setEvent_says (by decide) _ _ _).after rfl rfl
  · exact .of_same rfl rfl

/-- Without EPOCH_FAULT, and unless the period is set, the judgement reports nothing. -/
theorem judgeWatch_says (interval : Nat) (s : State) : Says [.epochFault, .ulBarred] [] s (judgeWatch interval s) := by
  have fault (t : State) : Says [.epochFault, .ulBarred] [] t (epochFault t) := setEvent_says (by decide) _ _ _
  unfold judgeWatch
  split
  · split
    · split
      · exact ((deriveAllBars_says _).mono (by decide) (List.Subset.refl _)).after rfl rfl
      · exact fault s
    · exact .of_same rfl rfl
  · split
    · exact .refl s
    · exact (fault _).after rfl rfl
  · split
    · exact .of_same rfl rfl
    · exact fault s
  · exact .of_same rfl rfl

theorem setWatch_self {w : WatchState} {s : State} (h : s.align.watch = w) : setWatch w s = s := by
  subst h
  rfl

/-- Out of tolerance the judgement sets EPOCH_FAULT at the count, and the watch. -/
theorem judgeWatch_faults {interval : Nat} {s : State} (h : s.align.Faults interval) :
    judgeWatch interval s = epochFault (setWatch (watchAfter s.align interval).1 s) := by
  unfold judgeWatch watchAfter
  rcases h with ⟨watch, timing, measured⟩ | ⟨watch | watch, irregular⟩
  · simp [watch, timing, measured, setWatch_self watch]
  · simp [watch, irregular]
  · simp [watch, irregular, setWatch_self watch]

/-- Within tolerance, with the period set before, the judgement writes the watch alone. -/
theorem judgeWatch_regular {interval : Nat} {s : State} (h : ¬s.align.Faults interval) (set : s.align.watch ≠ .unset) :
    judgeWatch interval s = setWatch (watchAfter s.align interval).1 s := by
  unfold judgeWatch watchAfter
  cases watch : s.align.watch with
  | unset => exact absurd watch set
  | regular | faulty =>
    have regular : intervalRegular s.align interval = true := by
      by_contra irregular
      exact h (.inr ⟨by simp [watch], by simpa using irregular⟩)
    simp [regular, setWatch_self watch]
  | lost => rfl

/-- A pulse judged by the two watches, with the count it brings. -/
def State.judged (s : State) (interval : Nat) (count : Option Epoch) : State :=
  judgeBus (judgeWatch interval (setEpoch count s))

theorem pulseArrives_eq (interval : Nat) (s : State) :
    pulseArrives interval s =
      (let j := s.judged interval (s.align.epoch.map (· + 1))
       openPulse (pulseWork (watchFaults interval s.align) (updateReached j) j.align.opState)
         (listenPulse (countEdge j))) := rfl

theorem judgeBus_says (s : State) : Says [.busStuck] [] s (judgeBus s) := by
  unfold judgeBus
  dsimp only
  split
  · exact (setEvent_says (by decide) _ _ _).after rfl rfl
  · exact .of_same rfl rfl

theorem judged_says (s : State) (interval : Nat) (count : Option Epoch) :
    Says [.epochFault, .ulBarred, .busStuck] [] s (s.judged interval count) :=
  (((judgeWatch_says _ _).mono (by decide) (List.Subset.refl _)).trans
    ((judgeBus_says _).mono (by decide) (List.Subset.refl _))).after rfl rfl

theorem judged_align (s : State) (interval : Nat) (count : Option Epoch) :
    (s.judged interval count).align =
      { s.align with
        epoch := count
        lastEpoch := s.align.epoch
        watch := (watchAfter s.align interval).1
        period := (watchAfter s.align interval).2
        timing := (s.judged interval count).align.timing } := by
  have align : (s.judged interval count).align = (judgeWatch interval (setEpoch count s)).align := by
    simp [State.judged]
  rw [align, judgeWatch_align]
  rfl

theorem judged_contexts {s : State} {interval : Nat} (count : Option Epoch)
    (set : s.align.watch ≠ .unset ∨ s.align.Faults interval) :
    (s.judged interval count).contexts = s.contexts := by
  have same : (judgeWatch interval (setEpoch count s)).contexts = s.contexts := by
    by_cases faults : (setEpoch count s).align.Faults interval
    · rw [judgeWatch_faults faults]
      simp [epochFault, setWatch]
    · rw [judgeWatch_regular faults (set.resolve_right faults)]
      simp [setWatch]
  simpa [State.judged] using same

theorem judged_rest (s : State) (interval : Nat) (count : Option Epoch) :
    (s.judged interval count).engine = s.engine ∧ (s.judged interval count).power = s.power ∧
      (s.judged interval count).edge = s.edge ∧ (s.judged interval count).peers = s.peers ∧
      (s.judged interval count).config = s.config ∧ (s.judged interval count).pulse = s.pulse ∧
      (s.judged interval count).pending = s.pending ∧
      (s.judged interval count).tracking = { s.tracking with serial := 0 } := by
  simp [State.judged]

theorem judged_bus (s : State) (interval : Nat) (count : Option Epoch) :
    (s.judged interval count).bus =
      { s.bus with
        watchStarted := true
        idleSeen := false
        stuck := if s.bus.watchStarted then !s.bus.idleSeen else s.bus.stuck } ∧
      (s.judged interval count).events.flag .busStuck =
        (s.events.flag .busStuck || (s.bus.watchStarted && !s.bus.idleSeen)) := by
  have bus : (judgeWatch interval (setEpoch count s)).bus = s.bus := by simp
  have flag : (judgeWatch interval (setEpoch count s)).events.flag .busStuck = s.events.flag .busStuck :=
    (judgeWatch_says interval (setEpoch count s)).flags _ (by decide)
  unfold State.judged judgeBus
  dsimp only
  rw [bus]
  split
  · next stuck => simp [stuck]
  · next idle => simp only [flag, idle, Bool.or_false, and_self]

end Sys2Proof.Machine
end


section
/-!
PROOFS. A pulse command as a chain: its arrival and the parts taken inside it (R102, R111, R152, R155).
-/
namespace Sys2Proof.Machine

open Sys2Proof

/-! ## The parts in order -/

/-- The events that the parts of a pulse's work may set. -/
def workKinds : List EventKind :=
  holdKinds ++ [.peerIncompatible, .modeSet, .shortage, .attachTimeout, .peerAbsent, .duplicateStation, .peerMisaligned]

theorem takeTask_worked (k : PulseTask) (s : State) : Says workKinds holdCounters s (takeTask s k) := by
  have frames : frameKinds ⊆ workKinds := by decide
  have kinds : taskKinds k ⊆ workKinds ∧ taskCounters k ⊆ holdCounters := by
    cases k with
    | announce | ability => exact ⟨frames, List.nil_subset _⟩
    | _ => decide
  exact (takeTask_says k s).mono kinds.1 kinds.2

theorem takeTasks_worked (l : List PulseTask) (s : State) : Says workKinds holdCounters s (takeTasks l s) :=
  Says.foldl l (fun t k _ => takeTask_worked k t) s

theorem takeTasks_append (l m : List PulseTask) (s : State) : takeTasks (l ++ m) s = takeTasks m (takeTasks l s) :=
  List.foldl_append

theorem takeTasks_own (s : State) :
    takeTasks ownTasks s = takeAgeing (takeCounts (takeStart (takeDecide (takeEntry s)))) := by
  generalize ht : takeTasks ownTasks s = t
  simp only [takeTasks, ownTasks, List.foldl_cons, List.foldl_nil, takeTask] at ht
  exact ht.symm

/-! ## The two pulse commands -/

theorem exec_epochPulse {interval : Nat} {order : List PulseTask} {s : State} (idle : s.pulse.pending = false)
    (op : s.align.opState ≠ .unconfigured) :
    exec (.epochPulse interval order) s = .next (takeTasks ownTasks (takeTasks order (pulseArrives interval s))) := by
  show Host.Outcome.next _ = _
  rw [finishPulse_idle idle]
  dsimp only
  rw [if_neg op, takeTasks_append]

theorem exec_markPulse {interval : Nat} {order : List PulseTask} {s : State} (idle : s.pulse.pending = false)
    (op : s.align.opState ≠ .unconfigured) :
    exec (.markPulse interval order) s = .next (takeTasks ownTasks (takeTasks order (markArrives interval s))) := by
  show Host.Outcome.next _ = _
  rw [finishPulse_idle idle]
  dsimp only
  rw [if_neg op, takeTasks_append]

/-- A MARK judged by the two watches, after its test for a slip. -/
def State.markJudged (s : State) (interval : Nat) : State := (testSlip s).judged interval (some 0)

/-- The entry to HOLDING that a fault brings at a MARK. -/
def State.markEntered (s : State) (interval : Nat) : State :=
  if watchFaults interval s.align then holdIfOperating (s.markJudged interval) else s.markJudged interval

/-- What a MARK has done when the blocks' parts are left. -/
def State.markWorked (s : State) (interval : Nat) : State :=
  listenPulse (markEffect (s.align.epoch.getD 1023) (countContexts (s.markEntered interval)))

theorem markArrives_eq (interval : Nat) (s : State) :
    markArrives interval s = openPulse (markWork (s.markWorked interval).align.opState) (s.markWorked interval) := by
  have align : (testSlip s).align = s.align := by simp
  have faults : watchFaults interval (setEpoch (some 0) (testSlip s)).align = watchFaults interval s.align := by
    simp only [watchFaults, setEpoch, align, intervalRegular]
  unfold markArrives
  dsimp only
  rw [faults]
  rfl

theorem testSlip_tells (s : State) : Tells [.markerSlip] [] 1 s (testSlip s) := by
  unfold testSlip
  split
  · split
    · exact setEvent_tells _ _ _ _
    · exact .refl s
  · exact .refl s

theorem listenPulse_says (s : State) : Says [.counterHalf] [.unsentFrames] s (listenPulse s) := by
  unfold listenPulse
  split
  · exact (frameDue_tells _ _).within.after rfl rfl
  · exact .refl s

theorem listenPulse_align (s : State) :
    (listenPulse s).align =
      if s.align.opState = .listening then { s.align with listened := min 255 (s.align.listened + 1) } else s.align := by
  unfold listenPulse
  by_cases listening : s.align.opState = .listening <;> simp [listening, Config.listenMax]

/-- Outside LISTENING the pulse makes no ABILITY due. -/
theorem listenPulse_elsewhere {s : State} (h : s.align.opState ≠ .listening) : listenPulse s = s := by
  simp [listenPulse, h]

/-! ## What the parts inside the pulse leave -/

theorem testListening_align (s : State) :
    (testListening s).align =
      { s.align with opState := (testListening s).align.opState, mode := (testListening s).align.mode } := by
  unfold testListening
  split
  · have marked : ((decideMode s.config s.peers).excluded.foldl excludePeer s).align = s.align :=
      foldl_keep State.align excludePeer (fun t j => by simp [excludePeer]) _ s
    simp [enterOperating, marked]
  · rfl

theorem takeDecide_align (s : State) :
    (takeDecide s).align =
      { s.align with opState := (takeDecide s).align.opState, mode := (takeDecide s).align.mode } := by
  unfold takeDecide
  split
  · exact testListening_align { s with pulse := { s.pulse with decide := false } }
  · rfl

theorem redoCount_eq_zero (s : State) (i : Index) : redoCount s i = 0 ↔ ∀ e ∈ s.tracking.redo, e.context ≠ i := by
  simp [redoCount, List.length_eq_zero_iff, List.filter_eq_nil_iff]

theorem isIdle_iff (s : State) (i : Index) (c : Context) :
    isIdle s i c = true ↔
      c.dlBacklog = 0 ∧ c.ulBacklog = 0 ∧ c.outstanding = 0 ∧ ∀ e ∈ s.tracking.redo, e.context ≠ i := by
  simp only [isIdle, Bool.and_eq_true, beq_iff_eq, redoCount_eq_zero, and_assoc]

theorem countContext_eq (s : State) (i : Index) (c : Context) : countContext s i c = c.counted i s.tracking.redo := by
  unfold countContext Context.counted
  cases state : c.state <;> simp [isIdle_iff]

theorem ctx_countContexts (s : State) (i : Index) : ctx (countContexts s) i = (ctx s i).counted i s.tracking.redo := by
  rw [ctx, countContexts, Table.get_mapWith, countContext_eq]
  rfl

/-- A context after the counts, if they are due (R11, R13). -/
theorem ctx_takeCounts (s : State) (i : Index) :
    ctx (takeCounts s) i = if s.pulse.counts then (ctx s i).counted i s.tracking.redo else ctx s i := by
  unfold takeCounts
  split
  · exact ctx_countContexts _ i
  · rfl

/-- A run that starts leaves the OGT and the Redo List, and of the Batch Ring all but the record of an aborted run. -/
theorem startRun_tracking (s : State) :
    (startRun s).tracking = s.tracking ∨ (startRun s).tracking = (abortRun true s).tracking := by
  unfold startRun
  split
  · dsimp only
    split <;> simp
  · exact .inl rfl

theorem takeStart_redo (s : State) :
    (takeStart s).tracking.redo = s.tracking.redo ∧ (takeStart s).tracking.ogt = s.tracking.ogt := by
  have aborted (t : State) : (abortRun true t).tracking.redo = t.tracking.redo ∧
      (abortRun true t).tracking.ogt = t.tracking.ogt := by
    rw [abortRun_tracking]
    split <;> exact ⟨rfl, rfl⟩
  unfold takeStart
  split
  · rcases startRun_tracking { s with pulse := { s.pulse with start := false } } with same | same
    · rw [same]
      exact ⟨rfl, rfl⟩
    · rw [same]
      exact aborted _
  · exact ⟨rfl, rfl⟩

/-- Without an entry to HOLDING the parts inside the pulse command itself. -/
theorem takeTasks_own_noEntry {s : State} (entry : s.pulse.entry = false) :
    takeTasks ownTasks s = takeAgeing (takeCounts (takeStart (takeDecide s))) := by
  rw [takeTasks_own, takeEntry, entry, if_neg Bool.false_ne_true]

theorem takeTasks_own_align {s : State} (entry : s.pulse.entry = false) :
    (takeTasks ownTasks s).align = (takeDecide s).align := by
  rw [takeTasks_own_noEntry entry]
  simp

/-- The contexts after the parts inside the pulse. -/
theorem ctx_own_noEntry {s : State} (entry : s.pulse.entry = false) (i : Index) :
    ctx (takeTasks ownTasks s) i = if s.pulse.counts then (ctx s i).counted i s.tracking.redo else ctx s i := by
  have before : ctx (takeStart (takeDecide s)) i = ctx s i := ctx_congr (by simp) i
  have redo : (takeStart (takeDecide s)).tracking.redo = s.tracking.redo := by rw [(takeStart_redo _).1]; simp
  have counts : (takeStart (takeDecide s)).pulse.counts = s.pulse.counts := by
    have first := takeTask_pulse .decide s
    have second := takeTask_pulse .start (takeDecide s)
    simp only [takeTask] at first second
    rw [second, first]
    rfl
  rw [takeTasks_own_noEntry entry, ctx_congr (s := takeCounts (takeStart (takeDecide s))) (by simp), ctx_takeCounts,
    before, redo, counts]

end Sys2Proof.Machine
end


section
/-!
PROOFS. The lateness and the uplink bar (R37, R38), and the counts that a pulse raises (R11, R13, R125, R139, R145).
-/
namespace Sys2Proof.Machine

open Sys2Proof

/-! ## A pulse that sets the period -/

/-- The period that an interval measures. -/
theorem measuredPeriod_eq {interval : Nat} {p : Period}
    (h : p = .ms2 ∧ 1960000 ≤ interval ∧ interval ≤ 2040000 ∨ p = .ms4 ∧ 3920000 ≤ interval ∧ interval ≤ 4080000) :
    measuredPeriod interval = some p := by
  rcases h with ⟨rfl, low, high⟩ | ⟨rfl, low, high⟩
  · simp [measuredPeriod, withinPeriod, low, high]
  · have above : ¬interval ≤ 2040000 := by omega
    simp [measuredPeriod, withinPeriod, low, high, above]

theorem judgeWatch_period {interval : Nat} {p : Period} {s : State} (unset : s.align.watch = .unset)
    (timing : s.align.timing = true) (measured : measuredPeriod interval = some p) :
    judgeWatch interval s = setPeriod p s := by
  simp [judgeWatch, unset, timing, measured]

/-- The state as the derivation reads it once a period is set. -/
def State.withPeriod (p : Period) (s : State) : State := { s with align := { s.align with period := some p } }

/-- What a pulse that sets a period has made of the watch and the bars, and what later work leaves of it. -/
structure State.PeriodSet (p : Period) (s t : State) : Prop where
  watch : t.align.watch = .regular
  period : t.align.period = some p
  bars : ∀ i, (ctx t i).ulBarred =
    if (ctx s i).state = .free then (ctx s i).ulBarred
    else (s.withPeriod p).bars (ctx s i)
  flag : t.events.flag .ulBarred = true ↔
    s.events.flag .ulBarred = true ∨ (s.withPeriod p).turned ≠ []

theorem setPeriod_set (p : Period) (s : State) : s.PeriodSet p (setPeriod p s) := by
  obtain ⟨C, whole, figures⟩ := deriveAllBars_eq { s with align := { s.align with watch := .regular, period := some p } }
  refine ⟨by simp [setPeriod], by simp [setPeriod], fun i => ?_, ?_⟩
  · rw [setPeriod, whole]
    refine (congrArg Context.ulBarred (figures i)).trans ?_
    show (if (ctx s i).state = .free then ctx s i else _ : Context).ulBarred = _
    split <;> rfl
  · rw [setPeriod, whole]
    exact foldl_barEvent_flag _ _ _

theorem State.PeriodSet.later {p : Period} {s t u : State} (h : s.PeriodSet p t) {ks : List EventKind} {cs : List Counter}
    (align : u.align.watch = t.align.watch ∧ u.align.period = t.align.period)
    (bars : ∀ i, (ctx u i).ulBarred = (ctx t i).ulBarred) (reports : Says ks cs t u) (kinds : .ulBarred ∉ ks) :
    s.PeriodSet p u where
  watch := align.1.trans h.watch
  period := align.2.trans h.period
  bars i := (bars i).trans (h.bars i)
  flag := by rw [reports.flags _ kinds, h.flag]

/-- What the derivation reads of the state before the pulse: the contexts, the configuration and the flag. -/
theorem State.PeriodSet.start {p : Period} {s s' t : State} (h : s'.PeriodSet p t) (contexts : s'.contexts = s.contexts)
    (config : s'.config = s.config) (flag : s'.events.flag .ulBarred = s.events.flag .ulBarred) : s.PeriodSet p t := by
  have same (i : Index) : ctx s' i = ctx s i := ctx_congr contexts i
  have bars (c : Context) : (s'.withPeriod p).bars c = (s.withPeriod p).bars c := by
    simp only [State.withPeriod, State.bars, rangeBars, latenessBars, slotTime, config]
    rfl
  have turned : (s'.withPeriod p).turned = (s.withPeriod p).turned := by
    refine List.filter_congr fun i _ => ?_
    have there : ctx (s'.withPeriod p) i = ctx (s.withPeriod p) i := same i
    simp only [bars, there]
  refine ⟨h.watch, h.period, fun i => ?_, ?_⟩
  · rw [h.bars i, bars, same]
  · rw [h.flag, flag, turned]

theorem Context.counted_ulBarred (i : Index) (redo : List RedoEntry) (c : Context) :
    (c.counted i redo).ulBarred = c.ulBarred := by
  unfold Context.counted
  dsimp only
  split
  · rfl
  · split <;> rfl

/-- The parts inside a pulse command without an entry leave the watch and the bars. -/
theorem State.PeriodSet.own {p : Period} {s t : State} (h : s.PeriodSet p t) (entry : t.pulse.entry = false) :
    s.PeriodSet p (takeTasks ownTasks t) := by
  refine h.later ?_ (fun i => ?_) (takeTasks_worked _ _) (by decide)
  · rw [takeTasks_own_align entry, takeDecide_align]
    exact ⟨rfl, rfl⟩
  · rw [ctx_own_noEntry entry]
    split
    · exact Context.counted_ulBarred ..
    · rfl

theorem judged_periodSet {interval : Nat} {p : Period} {s : State} (count : Option Epoch)
    (unset : s.align.watch = .unset) (timing : s.align.timing = true) (measured : measuredPeriod interval = some p) :
    s.PeriodSet p (s.judged interval count) := by
  have set : s.PeriodSet p (judgeWatch interval (setEpoch count s)) := by
    rw [judgeWatch_period (s := setEpoch count s) unset timing measured]
    exact (setPeriod_set p (setEpoch count s)).start rfl rfl rfl
  exact set.later ⟨by simp [State.judged], by simp [State.judged]⟩
    (fun i => by rw [State.judged, ctx_congr (judgeBus_keeps _).2.1]) (judgeBus_says _) (by decide)

theorem listenPulse_periodSet {p : Period} {s t : State} (h : s.PeriodSet p t) : s.PeriodSet p (listenPulse t) :=
  h.later (by rw [listenPulse_align]; split <;> exact ⟨rfl, rfl⟩) (fun i => by rw [ctx_congr (listenPulse_keeps t).2.1])
    (listenPulse_says t) (by decide)

/-- The pulse that sets the period, with MARK or without. -/
theorem pulse_periodSet {c : Instr} {interval : Nat} {p : Period} {s : State} (idle : s.pulse.pending = false)
    (op : s.align.opState ≠ .unconfigured) (unset : s.align.watch = .unset) (timing : s.align.timing = true)
    (measured : measuredPeriod interval = some p)
    (pulse : c = .epochPulse interval [] ∨ c = .markPulse interval [] ∧ s.align.opState = .listening) :
    ∃ t, exec c s = .next t ∧ s.PeriodSet p t := by
  have quiet : watchFaults interval s.align = false := by simp [watchFaults, unset, measured]
  rcases pulse with rfl | ⟨rfl, listening⟩
  · refine ⟨_, exec_epochPulse idle op, ?_⟩
    have judged := judged_periodSet (s.align.epoch.map (· + 1)) unset timing measured
    have counted : s.PeriodSet p (countEdge (s.judged interval (s.align.epoch.map (· + 1)))) :=
      judged.later (by simp) (fun i => by rw [ctx_congr (countEdge_keeps _).2.1]) (ks := []) (cs := [])
        (.of_same (by simp) (by simp)) (by decide)
    have arrived : s.PeriodSet p (pulseArrives interval s) := by
      rw [pulseArrives_eq]
      exact (listenPulse_periodSet counted).later ⟨rfl, rfl⟩ (fun _ => rfl) (ks := []) (cs := []) (.of_same rfl rfl)
        (by decide)
    refine arrived.own ?_
    rw [pulseArrives_eq]
    simp [openPulse, pulseWork, quiet]
  · refine ⟨_, exec_markPulse idle op, ?_⟩
    have align : (testSlip s).align = s.align := by simp
    have judged : s.PeriodSet p (s.markJudged interval) :=
      (judged_periodSet (s := testSlip s) (some 0) (by rwa [align]) (by rwa [align]) measured).start (by simp) (by simp)
        ((testSlip_tells s).within.flags _ (by decide))
    have stays : (s.markJudged interval).align.opState = .listening := by
      rw [State.markJudged, judged_align, align]
      exact listening
    have worked : s.markWorked interval = listenPulse (countContexts (s.markJudged interval)) := by
      simp only [State.markWorked, State.markEntered, quiet, Bool.false_eq_true, if_false, markEffect, countContexts_keeps,
        stays]
    have counted : s.PeriodSet p (countContexts (s.markJudged interval)) :=
      judged.later ⟨rfl, rfl⟩ (fun i => by rw [ctx_countContexts, Context.counted_ulBarred]) (ks := []) (cs := [])
        (.of_same rfl rfl) (by decide)
    have arrived : s.PeriodSet p (markArrives interval s) := by
      rw [markArrives_eq, worked]
      exact (listenPulse_periodSet counted).later ⟨rfl, rfl⟩ (fun _ => rfl) (ks := []) (cs := []) (.of_same rfl rfl)
        (by decide)
    refine arrived.own ?_
    rw [markArrives_eq]
    rfl

/-- Settles O8: the least covers, the derivation for one context, for all, and at a pulse that sets the period. -/
theorem latenessAndUplinkBar : Obligations.LatenessAndUplinkBar := by
  refine ⟨fun a g slot rtd margin pos => ?_, fun i s => ?_, fun s => ?_, ?_⟩
  · exact ⟨le_ceilDiv_mul pos _, fun n h => ceilDiv_le pos h, le_ceilDiv_mul pos _, fun n h => ceilDiv_le pos h,
      ceilDiv_mono (Nat.sub_le _ _)⟩
  · rfl
  · obtain ⟨C, whole, figures⟩ := deriveAllBars_eq s
    exact ⟨C, whole, figures⟩
  · intro c interval p s idle op unset timing interval' pulse slot
    obtain ⟨t, taken, set⟩ := pulse_periodSet idle op unset timing (measuredPeriod_eq interval') pulse
    have slotSet {u : State} (period : u.align.period = some p) : slotTime u = slot := by
      rw [slotTime, period]
      cases p <;> rfl
    have bars (c : Context) : (s.withPeriod p).bars c =
        (decide (s.config.maxShadow < (c.rtd + c.lateMargin - s.config.advanceLimit + slot - 1) / slot) ||
          (decide (c.strikes = 3) && !s.config.keepPolicy)) := by
      rw [← slotSet (u := s.withPeriod p) rfl]
      rfl
    refine ⟨t, taken, set.watch, set.period, slotSet set.period, fun i => ?_, ?_⟩
    · rw [set.bars i, bars]
    · rw [set.flag]
      have turned : (s.withPeriod p).turned = (List.finRange 256).filter fun i =>
          decide ((ctx s i).state ≠ .free) &&
            (decide (s.config.maxShadow < ((ctx s i).rtd + (ctx s i).lateMargin - s.config.advanceLimit + slot - 1) / slot) ||
              (decide ((ctx s i).strikes = 3) && !s.config.keepPolicy)) && !(ctx s i).ulBarred := by
        refine List.filter_congr fun i _ => ?_
        simp only [bars]
        rfl
      rw [turned]

end Sys2Proof.Machine
end


section
/-!
PROOFS. What a pulse does to the counts of contexts and peers, to the ERU's counter and to the bus watch (R11, R13, R125,
R139, R145, R148, R154).
-/
namespace Sys2Proof.Machine

open Sys2Proof

/-! ## The bus watch through a pulse -/

/-- The fields of the bus watch (R139). -/
def BusPort.watch (b : BusPort) : Bool × Bool × Bool := (b.watchStarted, b.idleSeen, b.stuck)

theorem frameDue_watch (f : BusFrame) (s : State) : (frameDue f s).bus.watch = s.bus.watch := by
  unfold frameDue
  split
  · simp
  · split <;> rfl

theorem abortRun_watch (b : Bool) (s : State) : (abortRun b s).bus.watch = s.bus.watch := by
  unfold abortRun
  split
  · unfold abortTarget
    simp only [advance_keeps, setEvent_keeps]
    split
    · exact frameDue_watch _ _
    · rfl
  · rfl

theorem startRun_watch (s : State) : (startRun s).bus.watch = s.bus.watch := by
  unfold startRun
  split
  · dsimp only
    split
    · rw [show (beginRun _ _ (abortRun true s)).bus = (abortRun true s).bus by simp, abortRun_watch]
    · exact abortRun_watch _ _
  · rfl

theorem listenPulse_watch (s : State) : (listenPulse s).bus.watch = s.bus.watch := by
  unfold listenPulse
  split
  · exact frameDue_watch _ _
  · rfl

theorem markEffect_watch (p : Epoch) (s : State) : (markEffect p s).bus.watch = s.bus.watch := by
  unfold markEffect
  split
  · rw [show (recoverMarker p s).bus = (abortRun true s).bus by simp [recoverMarker, emptyCarry], abortRun_watch]
  · split <;> simp
  · rfl
  · rfl

theorem takeTasks_own_watch {s : State} (entry : s.pulse.entry = false) :
    (takeTasks ownTasks s).bus.watch = s.bus.watch := by
  have started (t : State) : (takeStart t).bus.watch = t.bus.watch := by
    unfold takeStart
    split
    · exact startRun_watch _
    · rfl
  rw [takeTasks_own_noEntry entry, show (takeAgeing (takeCounts (takeStart (takeDecide s)))).bus =
    (takeStart (takeDecide s)).bus by simp, started]
  simp

/-! ## The peers through a pulse -/

theorem excludePeer_kept (s : State) (j : Station) :
    (∀ i, ((excludePeer s j).peers.records.get i).state = (s.peers.records.get i).state ∧
      ((excludePeer s j).peers.records.get i).silence = (s.peers.records.get i).silence) ∧
      (excludePeer s j).peers.settle = s.peers.settle := by
  have written : (excludePeer s j).peers =
      { s.peers with records := s.peers.records.set j { s.peers.records.get j with excluded := true } } := by
    unfold excludePeer writePeer
    split <;> simp [setPeer]
  rw [written]
  refine ⟨fun i => ?_, rfl⟩
  by_cases same : i = j
  · subst same
    simp
  · simp [Table.get_set_ne _ _ same]

/-- A listening test leaves states, silence counts and the settle count. -/
theorem takeDecide_peers (s : State) :
    (∀ i, ((takeDecide s).peers.records.get i).state = (s.peers.records.get i).state ∧
      ((takeDecide s).peers.records.get i).silence = (s.peers.records.get i).silence) ∧
      (takeDecide s).peers.settle = s.peers.settle := by
  have fold (l : List Station) (t : State) :
      (∀ i, ((l.foldl excludePeer t).peers.records.get i).state = (t.peers.records.get i).state ∧
        ((l.foldl excludePeer t).peers.records.get i).silence = (t.peers.records.get i).silence) ∧
        (l.foldl excludePeer t).peers.settle = t.peers.settle := by
    induction l generalizing t with
    | nil => exact ⟨fun _ => ⟨rfl, rfl⟩, rfl⟩
    | cons j l ih =>
      obtain ⟨records, settle⟩ := ih (excludePeer t j)
      obtain ⟨first, settle'⟩ := excludePeer_kept t j
      exact ⟨fun i => ⟨(records i).1.trans (first i).1, (records i).2.trans (first i).2⟩, settle.trans settle'⟩
  unfold takeDecide
  split
  · unfold testListening
    split
    · have peers : (enterOperating { s with pulse := { s.pulse with decide := false } }).peers =
          ((decideMode s.config s.peers).excluded.foldl excludePeer
            { s with pulse := { s.pulse with decide := false } }).peers := by
        simp [enterOperating]
      rw [peers]
      exact fold _ _
    · exact ⟨fun _ => ⟨rfl, rfl⟩, rfl⟩
  · exact ⟨fun _ => ⟨rfl, rfl⟩, rfl⟩

/-- The peers after the parts inside a pulse that ages them (R145, R148). -/
theorem takeTasks_own_ages {s : State} (entry : s.pulse.entry = false) (ageing : s.pulse.ageing = true) :
    (∀ j, ((takeTasks ownTasks s).peers.records.get j).silence =
      if (s.peers.records.get j).state = .absent then (s.peers.records.get j).silence
      else (s.peers.records.get j).silence + 1) ∧
      (takeTasks ownTasks s).peers.settle = min 255 (s.peers.settle + 1) := by
  obtain ⟨records, settle⟩ := takeDecide_peers s
  have due : (takeCounts (takeStart (takeDecide s))).pulse.ageing = true := by
    have first := takeTask_pulse .decide s
    have second := takeTask_pulse .start (takeDecide s)
    have third := takeTask_pulse .counts (takeStart (takeDecide s))
    simp only [takeTask] at first second third
    rw [third, second, first]
    exact ageing
  have peers : (takeCounts (takeStart (takeDecide s))).peers = (takeDecide s).peers := by simp
  rw [takeTasks_own_noEntry entry]
  generalize takeCounts (takeStart (takeDecide s)) = u at due peers
  rw [takeAgeing, due, if_pos rfl]
  refine ⟨fun j => ?_, ?_⟩
  · show ((u.peers.records.map Peer.aged).get j).silence = _
    rw [Table.get_map, peers, Peer.aged, ← (records j).1, ← (records j).2]
    by_cases absent : ((takeDecide s).peers.records.get j).state = .absent <;> simp [absent]
  · show min 255 (u.peers.settle + 1) = _
    rw [peers, settle]

/-! ## Contexts through a judgement -/

theorem judgeWatch_contexts (interval : Nat) (s : State) :
    (∃ p, judgeWatch interval s = setPeriod p s) ∨ (judgeWatch interval s).contexts = s.contexts := by
  unfold judgeWatch
  split
  · split
    · split
      · next p _ => exact .inl ⟨p, rfl⟩
      · exact .inr (by simp [epochFault])
    · exact .inr rfl
  · split
    · exact .inr rfl
    · exact .inr (by simp [epochFault, setWatch])
  · split
    · exact .inr rfl
    · exact .inr (by simp [epochFault])
  · exact .inr rfl

/-- The judgement writes at most the uplink bars. -/
theorem ctx_judged (s : State) (interval : Nat) (count : Option Epoch) (i : Index) :
    ∃ b, ctx (s.judged interval count) i = { ctx s i with ulBarred := b } := by
  have bus : ctx (s.judged interval count) i = ctx (judgeWatch interval (setEpoch count s)) i :=
    ctx_congr (judgeBus_keeps _).2.1 i
  rw [bus]
  rcases judgeWatch_contexts interval (setEpoch count s) with ⟨p, whole⟩ | same
  · obtain ⟨C, derived, figures⟩ := deriveAllBars_eq { setEpoch count s with
      align := { (setEpoch count s).align with watch := .regular, period := some p } }
    rw [whole, setPeriod, derived]
    have here : C.get i = if (ctx s i).state = .free then ctx s i else { ctx s i with ulBarred := _ } := figures i
    by_cases free : (ctx s i).state = .free
    · exact ⟨(ctx s i).ulBarred, here.trans (if_pos free)⟩
    · exact ⟨_, here.trans (if_neg free)⟩
  · exact ⟨(ctx s i).ulBarred, ctx_congr same i⟩

/-- The counts of a context that the SCT raises. -/
def Context.counts (c : Context) : ContextState × Nat × Nat := (c.state, c.admitCount, c.idleCount)

/-- The counts do not read the uplink bar. -/
theorem Context.counted_counts (c : Context) (b : Bool) (i : Index) (redo : List RedoEntry) :
    (Context.counted i redo { c with ulBarred := b }).counts = (c.counted i redo).counts := by
  unfold Context.counted
  dsimp only
  split
  · rfl
  · split <;> rfl

/-- What the counts of a pulse make of a context, case by case (R11, R13). -/
theorem Context.counted_cases {c x : Context} {i : Index} {redo : List RedoEntry}
    (h : x.counts = (c.counted i redo).counts) :
    let quiet := c.dlBacklog = 0 ∧ c.ulBacklog = 0 ∧ c.outstanding = 0 ∧ ∀ e ∈ redo, e.context ≠ i
    x.state = c.state ∧ x.admitCount = (if c.state = .admitting then c.admitCount + 1 else c.admitCount) ∧
      (c.state = .active → quiet → x.idleCount = c.idleCount + 1) ∧
      (c.state = .active → ¬quiet → x.idleCount = 0) ∧ (c.state ≠ .active → x.idleCount = c.idleCount) := by
  intro quiet
  obtain ⟨state, admission, idle⟩ : x.state = (c.counted i redo).state ∧ x.admitCount = (c.counted i redo).admitCount ∧
      x.idleCount = (c.counted i redo).idleCount := by
    simpa only [Context.counts, Prod.mk.injEq] using h
  rw [state, admission, idle]
  have whole : c.counted i redo =
      if c.state = .admitting then { c with admitCount := c.admitCount + 1 }
      else if c.state = .active then { c with idleCount := if quiet then c.idleCount + 1 else 0 } else c := rfl
  rw [whole]
  by_cases admitting : c.state = .admitting
  · simp [admitting]
  · by_cases active : c.state = .active
    · refine ⟨by simp [active], by simp [active], fun _ q => ?_, fun _ q => ?_, fun other => absurd active other⟩
      · simp [active, q]
      · simp [active, q]
    · simp [admitting, active]

/-! ## The pulse commands outside an entry to HOLDING -/

/-- What both pulses leave to tell of the peers, the listened count and the bus watch. -/
def State.Ages (s t : State) : Prop :=
  (∀ j, (t.peers.records.get j).silence =
      (if (s.peers.records.get j).state = .absent then (s.peers.records.get j).silence
      else (s.peers.records.get j).silence + 1)) ∧
    t.peers.settle = min 255 (s.peers.settle + 1) ∧
    t.align.listened =
      (if s.align.opState = .listening then min 255 (s.align.listened + 1) else s.align.listened) ∧
    t.bus.watchStarted = true ∧ t.bus.idleSeen = false ∧
    t.bus.stuck = (if s.bus.watchStarted then !s.bus.idleSeen else s.bus.stuck) ∧
    t.events.flag .busStuck = (s.events.flag .busStuck || (s.bus.watchStarted && !s.bus.idleSeen))

/-- The state just before the parts inside a pulse, by what the ages read of it. -/
structure State.Arrived (s u : State) : Prop where
  entry : u.pulse.entry = false
  ageing : u.pulse.ageing = true
  peers : u.peers = s.peers
  listened : u.align.listened =
    if s.align.opState = .listening then min 255 (s.align.listened + 1) else s.align.listened
  watch : u.bus.watch = (true, false, if s.bus.watchStarted then !s.bus.idleSeen else s.bus.stuck)
  flag : u.events.flag .busStuck = (s.events.flag .busStuck || (s.bus.watchStarted && !s.bus.idleSeen))

theorem State.Arrived.ages {s u : State} (h : s.Arrived u) : s.Ages (takeTasks ownTasks u) := by
  obtain ⟨silence, settle⟩ := takeTasks_own_ages h.entry h.ageing
  rw [h.peers] at silence settle
  have watch := (takeTasks_own_watch h.entry).trans h.watch
  simp only [BusPort.watch, Prod.mk.injEq] at watch
  refine ⟨silence, settle, ?_, watch.1, watch.2.1, watch.2.2, ?_⟩
  · rw [takeTasks_own_align h.entry, takeDecide_align, ← h.listened]
  · rw [(takeTasks_worked ownTasks u).flags _ (by decide), h.flag]

/-- No entry to HOLDING is due at a pulse that does not fault in OPERATING. -/
theorem entry_not_due {interval : Nat} {s : State}
    (h : s.align.opState = .operating → ¬s.align.Faults interval) :
    (watchFaults interval s.align && s.align.opState == .operating) = false := by
  by_cases op : s.align.opState = .operating
  · have quiet : watchFaults interval s.align = false := Bool.eq_false_iff.mpr ((watchFaults_iff _ _).not.mpr (h op))
    rw [quiet, Bool.false_and]
  · simp [op]

theorem pulseArrives_arrived {interval : Nat} {s : State}
    (h : s.align.opState = .operating → ¬s.align.Faults interval) : s.Arrived (pulseArrives interval s) := by
  have align := judged_align s interval (s.align.epoch.map (· + 1))
  obtain ⟨-, -, -, peers, -⟩ := judged_rest s interval (s.align.epoch.map (· + 1))
  obtain ⟨bus, flag⟩ := judged_bus s interval (s.align.epoch.map (· + 1))
  rw [pulseArrives_eq]
  dsimp only
  generalize s.judged interval (s.align.epoch.map (· + 1)) = j at *
  have op : j.align.opState = s.align.opState := by rw [align]
  have listened : j.align.listened = s.align.listened := by rw [align]
  refine ⟨?_, rfl, ?_, ?_, ?_, ?_⟩
  · show (watchFaults interval s.align && j.align.opState == .operating) = false
    rw [op, entry_not_due h]
  · simp [openPulse, peers]
  · show (listenPulse (countEdge j)).align.listened = _
    rw [listenPulse_align, (countEdge_keeps j).2.2.2.2.2.2.2.1, op]
    split
    · rw [listened]
    · rw [listened]
  · show (listenPulse (countEdge j)).bus.watch = _
    rw [listenPulse_watch, show (countEdge j).bus = j.bus by simp, bus]
    rfl
  · show (listenPulse (countEdge j)).events.flag .busStuck = _
    rw [(listenPulse_says _).flags _ (by decide), show (countEdge j).events = j.events by simp, flag]

/-! ## The effect of a MARK -/

/-- The events that a MARK's effect may set. -/
def markKinds : List EventKind := .released :: abortKinds

/-- The counters that it may advance. -/
def markCounters : List Counter := .bytesLost :: abortCounters

theorem emptyTracking_says (s : State) : Says [.released, .counterHalf] [.bytesLost] s (emptyTracking s) := by
  have lost (n : Nat) (t : State) : Says [.released, .counterHalf] [.bytesLost] t (loseBytes n t) :=
    (loseBytes_tells n t).within.mono (by decide) (List.Subset.refl _)
  have released (t : State) : Says [.released, .counterHalf] [.bytesLost] t (emptyOutstanding t) :=
    have set (u : State) (i : Index) : Says [.released, .counterHalf] [.bytesLost] u (releaseDone i u) :=
      (setEvent_says (by decide) i.val .done (enterFree i u)).after rfl rfl
    (Says.foldl _ (fun u i _ => set u i) _).after rfl rfl
  have counted : Says [.released, .counterHalf] [.bytesLost] s (loseBytes ((s.tracking.redo.map RedoEntry.bytes).sum)
      { s with tracking := { s.tracking with ring := Table.fill 16 BatchRecord.empty, ogt := [], redo := [] } }) :=
    (lost _ _).after rfl rfl
  exact counted.trans (released _)

theorem markEffect_says (p : Epoch) (s : State) : Says markKinds markCounters s (markEffect p s) := by
  have emptied (t : State) : Says markKinds markCounters t (emptyTracking t) :=
    (emptyTracking_says t).mono (by decide) (by decide)
  have aborted : Says markKinds markCounters s (abortRun true s) :=
    (abortRun_tells true s).within.mono (by decide) (by decide)
  unfold markEffect
  split
  · have cleared : Says markKinds markCounters s (emptyCarry (abortRun true s)) := aborted.before rfl rfl
    exact (cleared.trans (emptied _)).before rfl rfl
  · split
    · have cleared : Says markKinds markCounters s (emptyTracking (emptyCarry s)) := (emptied _).after rfl rfl
      exact cleared.before rfl rfl
    · exact .of_same rfl rfl
  · exact .refl s
  · exact .refl s

theorem markEffect_align (p : Epoch) (s : State) :
    (markEffect p s).align =
      { s.align with
        opState := if s.align.opState = .holding ∧ exitMet s = true then .operating else s.align.opState } := by
  unfold markEffect
  cases op : s.align.opState with
  | holding =>
    by_cases met : exitMet s = true
    · simp [met, leaveHolding, emptyCarry]
    · simp [met]
      rw [← op]
  | operating | listening | unconfigured =>
    simp
    rw [← op]

/-- The counts of a context that is not CLOSING survive the emptying. -/
theorem markEffect_counts (p : Epoch) {s : State} {i : Index} (h : (ctx s i).state ≠ .closing) :
    (ctx (markEffect p s) i).counts = (ctx s i).counts := by
  have emptied {t : State} (same : ctx t i = ctx s i) : (ctx (emptyTracking t) i).counts = (ctx s i).counts := by
    rw [ctx_emptyTracking, same, if_neg h]
    rfl
  unfold markEffect
  split
  · exact emptied (ctx_congr (by simp [emptyCarry]) i)
  · split
    · exact emptied rfl
    · rfl
  · rfl
  · rfl

/-- A MARK that brings no entry to HOLDING. -/
theorem markEntered_quiet {interval : Nat} {s : State} (h : s.align.opState = .operating → ¬s.align.Faults interval) :
    s.markEntered interval = s.markJudged interval := by
  have op : (s.markJudged interval).align.opState = s.align.opState := by
    rw [State.markJudged, judged_align]
    simp
  have quiet := entry_not_due h
  unfold State.markEntered
  split
  · next faults =>
    rw [faults, Bool.true_and] at quiet
    rw [holdIfOperating, op, quiet, if_neg Bool.false_ne_true]
  · rfl

theorem markArrives_arrived {interval : Nat} {s : State}
    (h : s.align.opState = .operating → ¬s.align.Faults interval) : s.Arrived (markArrives interval s) := by
  have align := judged_align (testSlip s) interval (some 0)
  obtain ⟨-, -, -, peers, -⟩ := judged_rest (testSlip s) interval (some 0)
  obtain ⟨bus, flag⟩ := judged_bus (testSlip s) interval (some 0)
  rw [markArrives_eq, State.markWorked, markEntered_quiet h, State.markJudged]
  generalize (testSlip s).judged interval (some 0) = j at *
  have op : (countContexts j).align.opState = s.align.opState := by
    show j.align.opState = _
    rw [align]
    simp
  have listened : (countContexts j).align.listened = s.align.listened := by
    show j.align.listened = _
    rw [align]
    simp
  have effect := markEffect_align (s.align.epoch.getD 1023) (countContexts j)
  refine ⟨rfl, rfl, ?_, ?_, ?_, ?_⟩
  · simp [openPulse, peers]
  · show (listenPulse _).align.listened = _
    rw [listenPulse_align, effect, op]
    by_cases listening : s.align.opState = .listening
    · have same : j.align.listened = s.align.listened := listened
      simp [listening, same]
    · have still : (if s.align.opState = .holding ∧ exitMet (countContexts j) = true then OpState.operating
          else s.align.opState) ≠ .listening := by
        split
        · decide
        · exact listening
      rw [if_neg still, if_neg listening]
      exact listened
  · show (listenPulse _).bus.watch = _
    rw [listenPulse_watch, markEffect_watch, show (countContexts j).bus = j.bus from rfl, bus]
    simp [BusPort.watch]
  · show (listenPulse _).events.flag .busStuck = _
    rw [(listenPulse_says _).flags _ (by decide), (markEffect_says _ _).flags _ (by decide),
      show (countContexts j).events = j.events from rfl, flag, (testSlip_tells s).within.flags _ (by decide)]
    simp

/-! ## The ERU's counter -/

theorem countEdge_edge (s : State) :
    (countEdge s).edge.counter =
      if s.align.opState = .operating ∧ edgeOn s = true then
        if s.config.updateInterval ≤ s.edge.counter + 1 then 0 else s.edge.counter + 1
      else s.edge.counter := by
  by_cases op : s.align.opState = .operating
  · cases on : edgeOn s <;> simp [countEdge, updateReached, edgeCounts, op, on]
  · simp [countEdge, edgeCounts, op]

theorem updateReached_eq (s : State) :
    updateReached s =
      (decide (s.align.opState = .operating) && edgeOn s && decide (s.config.updateInterval ≤ s.edge.counter + 1)) := by
  by_cases op : s.align.opState = .operating <;> simp [updateReached, edgeCounts, op]

theorem takeTasks_own_edge {s : State} (entry : s.pulse.entry = false) (decide : s.pulse.decide = false) :
    (takeTasks ownTasks s).edge = s.edge ∧ (takeTasks ownTasks s).pulse.update = s.pulse.update := by
  have kept : takeDecide s = s := by rw [takeDecide, decide, if_neg Bool.false_ne_true]
  rw [takeTasks_own_noEntry entry, kept]
  refine ⟨by simp, ?_⟩
  have second := takeTask_pulse .start s
  have third := takeTask_pulse .counts (takeStart s)
  have fourth := takeTask_pulse .ageing (takeCounts (takeStart s))
  simp only [takeTask] at second third fourth
  rw [fourth, third, second]
  rfl

/-- The edge figures of an EPOCH pulse outside LISTENING. -/
theorem pulseArrives_edge {interval : Nat} {s : State} (op : s.align.opState ≠ .listening)
    (h : s.align.opState = .operating → ¬s.align.Faults interval) :
    (takeTasks ownTasks (pulseArrives interval s)).edge.counter =
        (if s.align.opState = .operating ∧ edgeOn s = true then
          if s.config.updateInterval ≤ s.edge.counter + 1 then 0 else s.edge.counter + 1
        else s.edge.counter) ∧
      (takeTasks ownTasks (pulseArrives interval s)).pulse.update =
        (decide (s.align.opState = .operating) && edgeOn s && decide (s.config.updateInterval ≤ s.edge.counter + 1)) := by
  have align := judged_align s interval (s.align.epoch.map (· + 1))
  obtain ⟨-, -, edge, -, config, -⟩ := judged_rest s interval (s.align.epoch.map (· + 1))
  have on : edgeOn (s.judged interval (s.align.epoch.map (· + 1))) = edgeOn s := by
    rw [edgeOn, align]
    rfl
  have opState : (s.judged interval (s.align.epoch.map (· + 1))).align.opState = s.align.opState := by rw [align]
  have entry := (pulseArrives_arrived h).entry
  have decide : (pulseArrives interval s).pulse.decide = false := by
    rw [pulseArrives_eq]
    simp [openPulse, pulseWork, opState, op]
  obtain ⟨sameEdge, update⟩ := takeTasks_own_edge entry decide
  rw [sameEdge, update, pulseArrives_eq]
  refine ⟨?_, ?_⟩
  · show (listenPulse (countEdge _)).edge.counter = _
    rw [(listenPulse_keeps _).2.2.2.2.2.1, countEdge_edge, on, opState, edge, config]
  · show updateReached _ = _
    rw [updateReached_eq, on, opState, edge, config]

/-! ## The statement -/

/-- Settles O30, by what arrives at the parts inside each pulse. -/
theorem pulseRaisesTheCounts : Obligations.PulseRaisesTheCounts := by
  intro interval s idle op regular ages counts
  have quiet : s.align.opState = .operating → ¬s.align.Faults interval := by
    intro operating faults
    obtain ⟨watch, tolerance⟩ := regular operating
    rcases faults with ⟨unset, -⟩ | ⟨-, out⟩
    · rw [watch] at unset
      cases unset
    · rw [tolerance] at out
      cases out
  refine ⟨⟨_, exec_epochPulse idle op, (pulseArrives_arrived quiet).ages, fun i => ?_, fun operating => ?_,
    fun holding => ?_⟩, ⟨_, exec_markPulse idle op, (markArrives_arrived quiet).ages, fun i open_ => ?_⟩⟩
  · refine Context.counted_cases ?_
    obtain ⟨b, bars⟩ := ctx_judged s interval (s.align.epoch.map (· + 1)) i
    have arrived : ctx (pulseArrives interval s) i = ctx (s.judged interval (s.align.epoch.map (· + 1))) i := by
      rw [pulseArrives_eq]
      exact ctx_congr ((listenPulse_keeps _).2.1.trans (countEdge_keeps _).2.1) i
    have redo : (pulseArrives interval s).tracking.redo = s.tracking.redo := by
      rw [pulseArrives_eq]
      simp [openPulse, judged_rest]
    have counts : (pulseArrives interval s).pulse.counts = true := rfl
    show (ctx (takeTasks ownTasks (pulseArrives interval s)) i).counts = _
    rw [ctx_own_noEntry (pulseArrives_arrived quiet).entry, counts, if_pos rfl, arrived, bars, redo,
      Context.counted_counts]
  · have notListening : s.align.opState ≠ .listening := by rw [operating]; decide
    obtain ⟨counter, update⟩ := pulseArrives_edge notListening quiet
    refine ⟨counter.trans ?_, update.trans ?_⟩
    · cases on : edgeOn s <;> simp [operating]
    · simp [operating]
  · have notListening : s.align.opState ≠ .listening := by rw [holding]; decide
    obtain ⟨counter, update⟩ := pulseArrives_edge notListening quiet
    exact ⟨counter.trans (by simp [holding]), update.trans (by simp [holding])⟩
  · refine Context.counted_cases ?_
    obtain ⟨b, bars⟩ := ctx_judged (testSlip s) interval (some 0) i
    have before : ctx (testSlip s) i = ctx s i := ctx_congr (by simp) i
    have redo : (s.markJudged interval).tracking.redo = s.tracking.redo := by
      simp [State.markJudged, judged_rest]
    have counted : ctx (countContexts (s.markJudged interval)) i =
        Context.counted i s.tracking.redo { ctx s i with ulBarred := b } := by
      rw [ctx_countContexts, redo, State.markJudged, bars, before]
    have state : (ctx (countContexts (s.markJudged interval)) i).state ≠ .closing := by
      rw [counted]
      have same := (Context.counted_cases (c := ctx s i) (Context.counted_counts (ctx s i) b i s.tracking.redo)).1
      rwa [same]
    have arrived : ctx (markArrives interval s) i =
        ctx (markEffect (s.align.epoch.getD 1023) (countContexts (s.markJudged interval))) i := by
      rw [markArrives_eq, State.markWorked, markEntered_quiet quiet]
      exact ctx_congr (listenPulse_keeps _).2.1 i
    have counts : (markArrives interval s).pulse.counts = false := rfl
    show (ctx (takeTasks ownTasks (markArrives interval s)) i).counts = _
    rw [ctx_own_noEntry (markArrives_arrived quiet).entry, counts, if_neg Bool.false_ne_true, arrived,
      markEffect_counts _ state, counted, Context.counted_counts]

end Sys2Proof.Machine
end


section
/-!
PROOFS. The listening test and the common mode (R154).
-/
namespace Sys2Proof.Machine

open Sys2Proof

/-! ## The decision over the counted peers -/

/-- The decision once the stations below `n` have been taken. -/
def decideBelow (p : Params) (t : PeerTable) (n : Nat) : Decision :=
  ((List.finRange 8).take n).foldl (decideOne t) { running := p.counts, edge := p.edgeCapable, excluded := [] }

/-- A station leaves the decision: it is counted, and shares no sub-band count with the running set. -/
def isOut (p : Params) (t : PeerTable) (j : Station) : Prop :=
  ∃ a, (t.records.get j).countedAbility = some a ∧
    (decideBelow p t j.val).running.meet a.counts = ⟨false, false, false⟩

theorem Counts.isEmpty_iff (c : Counts) : c.isEmpty = true ↔ c = ⟨false, false, false⟩ := by
  obtain ⟨a, b, c⟩ := c
  cases a <;> cases b <;> cases c <;> decide

theorem decideBelow_succ (p : Params) (t : PeerTable) (j : Station) :
    decideBelow p t (j.val + 1) = decideOne t (decideBelow p t j.val) j := by
  have next : (List.finRange 8).take (j.val + 1) = (List.finRange 8).take j.val ++ [j] := by
    rw [List.take_add_one, List.getElem?_eq_getElem (by simp)]
    simp
  rw [decideBelow, next, List.foldl_append]
  rfl

theorem decideBelow_all (p : Params) (t : PeerTable) : decideBelow p t 8 = decideMode p t := rfl

/-- A station that leaves is marked, and changes nothing else of the decision. -/
theorem decideBelow_out {p : Params} {t : PeerTable} {j : Station} (h : isOut p t j) :
    decideBelow p t (j.val + 1) =
      { decideBelow p t j.val with excluded := (decideBelow p t j.val).excluded ++ [j] } := by
  obtain ⟨a, counted, empty⟩ := h
  rw [decideBelow_succ, decideOne, counted]
  exact if_pos ((Counts.isEmpty_iff _).mpr empty)

/-- A station that is counted and stays narrows the running set. -/
theorem decideBelow_in {p : Params} {t : PeerTable} {j : Station} {a : Ability}
    (counted : (t.records.get j).countedAbility = some a) (h : ¬isOut p t j) :
    decideBelow p t (j.val + 1) =
      { decideBelow p t j.val with
        running := (decideBelow p t j.val).running.meet a.counts
        edge := (decideBelow p t j.val).edge && a.edge } := by
  rw [decideBelow_succ, decideOne, counted]
  exact if_neg fun empty => h ⟨a, counted, (Counts.isEmpty_iff _).mp empty⟩

/-- A station that is not counted changes nothing. -/
theorem decideBelow_uncounted {p : Params} {t : PeerTable} {j : Station}
    (h : (t.records.get j).countedAbility = none) : decideBelow p t (j.val + 1) = decideBelow p t j.val := by
  rw [decideBelow_succ, decideOne, h]

/-- The stations that left and the edge capability, once the stations below `n` have been taken. -/
theorem decideBelow_spec (p : Params) (t : PeerTable) (n : Nat) (h : n ≤ 8) :
    (∀ j, j ∈ (decideBelow p t n).excluded ↔ j.val < n ∧ isOut p t j) ∧
      ((decideBelow p t n).edge = true ↔
        p.edgeCapable = true ∧
          ∀ j : Station, j.val < n → ∀ a, (t.records.get j).countedAbility = some a → ¬isOut p t j → a.edge = true) ∧
      (decideBelow p t n).excluded.length ≤ n := by
  induction n with
  | zero => simp [decideBelow]
  | succ n ih =>
    obtain ⟨excluded, edge, length⟩ := ih (by omega)
    obtain ⟨j, hj⟩ : ∃ j : Station, j.val = n := ⟨⟨n, by omega⟩, rfl⟩
    subst hj
    have last (i : Station) : i.val < j.val + 1 ↔ i.val < j.val ∨ i = j := by
      rw [Nat.lt_succ_iff_lt_or_eq, Fin.ext_iff]
    by_cases out : isOut p t j
    · rw [decideBelow_out out]
      refine ⟨fun i => ?_, ?_, by simpa using length⟩
      · rw [List.mem_append, excluded, List.mem_singleton, last]
        constructor
        · rintro (⟨below, isOut⟩ | rfl)
          · exact ⟨.inl below, isOut⟩
          · exact ⟨.inr rfl, out⟩
        · rintro ⟨below | rfl, isOut⟩
          · exact .inl ⟨below, isOut⟩
          · exact .inr rfl
      · rw [edge]
        refine and_congr_right fun _ => forall_congr' fun i => ?_
        rw [last]
        constructor
        · rintro h (below | rfl) a counted stays
          · exact h below a counted stays
          · exact absurd out stays
        · exact fun h below => h (.inl below)
    · have same : ∀ i : Station, (i.val < j.val + 1 ∧ isOut p t i) ↔ (i.val < j.val ∧ isOut p t i) := fun i => by
        rw [last]
        constructor
        · rintro ⟨below | rfl, isOut⟩
          · exact ⟨below, isOut⟩
          · exact absurd isOut out
        · exact fun ⟨below, isOut⟩ => ⟨.inl below, isOut⟩
      cases counted : (t.records.get j).countedAbility with
      | none =>
        rw [decideBelow_uncounted counted]
        refine ⟨fun i => by rw [excluded, same], ?_, by omega⟩
        rw [edge]
        refine and_congr_right fun _ => forall_congr' fun i => ?_
        rw [last]
        constructor
        · rintro h (below | rfl) a known stays
          · exact h below a known stays
          · rw [counted] at known
            cases known
        · exact fun h below => h (.inl below)
      | some a =>
        rw [decideBelow_in counted out]
        refine ⟨fun i => by rw [same, ← excluded], ?_, Nat.le_succ_of_le length⟩
        rw [Bool.and_eq_true, edge, and_assoc]
        refine and_congr_right fun _ => ?_
        constructor
        · rintro ⟨h, own⟩ i below b known stays
          rcases (last i).mp below with below | rfl
          · exact h i below b known stays
          · rw [counted, Option.some.injEq] at known
            rw [← known]
            exact own
        · exact fun h => ⟨fun i below => h i ((last i).mpr (.inl below)), h j ((last j).mpr (.inr rfl)) a counted out⟩

/-! ## Marking the stations that left -/

theorem excludePeer_peers (s : State) (j : Station) :
    (excludePeer s j).peers =
      { s.peers with records := s.peers.records.set j { s.peers.records.get j with excluded := true } } := by
  unfold excludePeer writePeer
  split <;> simp [setPeer]

theorem excludePeer_flag (s : State) (j : Station) :
    (excludePeer s j).events.flag .peerIncompatible = true ↔
      s.events.flag .peerIncompatible = true ∨ (s.peers.records.get j).incompatible = false := by
  have now : ({ s.peers.records.get j with excluded := true } : Peer).incompatible = true := rfl
  unfold excludePeer writePeer
  rw [now, Bool.true_and]
  cases before : (s.peers.records.get j).incompatible <;> simp [setPeer]

theorem foldl_excludePeer (l : List Station) (s : State) :
    (∀ j, (l.foldl excludePeer s).peers.records.get j =
        if j ∈ l then { s.peers.records.get j with excluded := true } else s.peers.records.get j) ∧
      (l.foldl excludePeer s).peers.settle = s.peers.settle ∧
      ((l.foldl excludePeer s).events.flag .peerIncompatible = true ↔
        s.events.flag .peerIncompatible = true ∨ ∃ j ∈ l, (s.peers.records.get j).incompatible = false) := by
  induction l generalizing s with
  | nil => simp
  | cons i l ih =>
    obtain ⟨records, settle, flag⟩ := ih (excludePeer s i)
    have record (j : Station) : (excludePeer s i).peers.records.get j =
        if j = i then { s.peers.records.get j with excluded := true } else s.peers.records.get j := by
      rw [excludePeer_peers]
      by_cases same : j = i
      · subst same
        simp
      · simp [same, Table.get_set_ne _ _ same]
    refine ⟨fun j => ?_, ?_, ?_⟩
    · rw [List.foldl_cons, records, record]
      by_cases mine : j = i <;> by_cases later : j ∈ l <;> simp [mine, later]
    · rw [List.foldl_cons, settle, excludePeer_peers]
    · rw [List.foldl_cons, flag, excludePeer_flag]
      have later : (∃ j ∈ l, ((excludePeer s i).peers.records.get j).incompatible = false) →
          ∃ j ∈ l, (s.peers.records.get j).incompatible = false := by
        rintro ⟨j, hj, clear⟩
        rw [record] at clear
        by_cases same : j = i
        · rw [if_pos same] at clear
          cases clear
        · rw [if_neg same] at clear
          exact ⟨j, hj, clear⟩
      constructor
      · rintro ((set | here) | rest)
        · exact .inl set
        · exact .inr ⟨i, List.mem_cons_self, here⟩
        · obtain ⟨j, hj, clear⟩ := later rest
          exact .inr ⟨j, List.mem_cons_of_mem _ hj, clear⟩
      · rintro (set | ⟨j, hj, clear⟩)
        · exact .inl (.inl set)
        · by_cases same : j = i
          · exact .inl (.inr (same ▸ clear))
          · refine .inr ⟨j, (List.mem_cons.mp hj).resolve_left same, ?_⟩
            rw [record, if_neg same]
            exact clear

theorem foldl_excludePeer_tells (l : List Station) (s : State) :
    Tells [.peerIncompatible] [] l.length s (l.foldl excludePeer s) := by
  have one (t : State) (j : Station) : Tells [.peerIncompatible] [] 1 t (excludePeer t j) := by
    unfold excludePeer writePeer
    split
    · exact (setEvent_tells _ _ _ _).after rfl rfl
    · exact .of_same rfl rfl
  have := Tells.foldl one l s
  rwa [Nat.one_mul] at this

/-! ## The test -/

theorem listeningMet_iff (s : State) :
    listeningMet s = true ↔
      s.align.epoch.isSome = true ∧ 16 ≤ s.align.listened ∧ 8 ≤ s.peers.settle ∧ s.align.watch = .regular ∧
        s.link.lost = false := by
  simp only [listeningMet, Bool.and_eq_true, decide_eq_true_eq, beq_iff_eq, Bool.not_eq_true', and_assoc]
  rfl

theorem testListening_opState {s : State} (h : s.align.opState = .listening) :
    (testListening s).align.opState = if listeningMet s = true then .operating else .listening := by
  unfold testListening
  rw [h, beq_self_eq_true, Bool.true_and]
  split
  · rfl
  · exact h

/-- The operating state after the parts inside a pulse taken in LISTENING. -/
theorem takeTasks_own_listening {u : State} (entry : u.pulse.entry = false) (decide : u.pulse.decide = true)
    (op : u.align.opState = .listening) :
    (takeTasks ownTasks u).align.opState = if listeningMet u = true then .operating else .listening := by
  rw [takeTasks_own_align entry, takeDecide, decide, if_pos rfl, testListening_opState (by exact op)]
  rfl

/-- A state of which all but alignment, edge state, peers, events and link is kept. -/
theorem State.eq_of_kept {s t : State}
    (h : t.pending = s.pending ∧ t.contexts = s.contexts ∧ t.engine = s.engine ∧ t.tracking = s.tracking ∧
      t.power = s.power ∧ t.bus = s.bus ∧ t.config = s.config ∧ t.pulse = s.pulse ∧ t.freeValues = s.freeValues) :
    t = { s with align := t.align, edge := t.edge, peers := t.peers, events := t.events, link := t.link } := by
  obtain ⟨pending, contexts, engine, tracking, power, bus, config, pulse, free⟩ := h
  cases t
  simp only at pending contexts engine tracking power bus config pulse free
  subst pending contexts engine tracking power bus config pulse free
  rfl

/-- What the entry to OPERATING makes of a state; the peers and PEER_INCOMPATIBLE are those of the marking. -/
theorem enterOperating_effect (s : State) :
    let d := decideMode s.config s.peers
    let t := enterOperating s
    t.align = { s.align with opState := .operating, mode := some d.mode } ∧ t.edge = { s.edge with counter := 0 } ∧
      t.peers = (d.excluded.foldl excludePeer s).peers ∧
      (t.events.flag .peerIncompatible = (d.excluded.foldl excludePeer s).events.flag .peerIncompatible) ∧
      t.events.flag .modeSet = true ∧
      (s.events.enabled .modeSet = true → s.link.queue.length + d.excluded.length < 24 →
        t.link.queue.getLast? =
          some
            (.notice
              { event := .modeSet, subject := epochField s.align.epoch, code := .figure d.mode.bands.bands,
                epoch := s.align.epoch })) := by
  intro d t
  have align : (d.excluded.foldl excludePeer s).align = s.align :=
    foldl_keep State.align excludePeer (fun u j => by simp [excludePeer]) _ s
  have edge : (d.excluded.foldl excludePeer s).edge = s.edge :=
    foldl_keep State.edge excludePeer (fun u j => by simp [excludePeer]) _ s
  have told := foldl_excludePeer_tells d.excluded s
  have whole : t = { setEvent .modeSet (epochField s.align.epoch) (.figure d.mode.bands.bands)
        { d.excluded.foldl excludePeer s with
          align := { (d.excluded.foldl excludePeer s).align with mode := some d.mode } } with
      align := { (d.excluded.foldl excludePeer s).align with opState := .operating, mode := some d.mode }
      edge := { (d.excluded.foldl excludePeer s).edge with counter := 0 } } := rfl
  generalize d.excluded.foldl excludePeer s = u at *
  rw [whole]
  refine ⟨by rw [align], by rw [edge], rfl, ?_, ?_, fun on room => ?_⟩
  · exact (setEvent_tells .modeSet (epochField s.align.epoch) (.figure d.mode.bands.bands)
      { u with align := { u.align with mode := some d.mode } }).within.flags .peerIncompatible (by decide)
  · exact (flag_setEvent .modeSet (epochField s.align.epoch) (.figure d.mode.bands.bands) _ .modeSet).trans (by simp)
  · have length := told.length
    have queue := setEvent_queue (k := .modeSet) (s := { u with align := { u.align with mode := some d.mode } })
      (epochField s.align.epoch) (.figure d.mode.bands.bands) ((told.within.enabled _).trans on)
      (show u.link.queue.length < 24 by omega)
    show (setEvent _ _ _ _).link.queue.getLast? = _
    rw [queue]
    simp [align]

/-! ## What arrives at the parts inside a pulse -/

/-- The events that the arrival of an EPOCH pulse may set. -/
def arrivalKinds : List EventKind := [.epochFault, .ulBarred, .busStuck, .counterHalf]

/-- Beyond the judgement the arrival reports at most an ABILITY cut off. -/
theorem pulseArrives_after (interval : Nat) (s : State) :
    Says [.counterHalf] [.unsentFrames] (s.judged interval (s.align.epoch.map (· + 1))) (pulseArrives interval s) := by
  have counted : Says [.counterHalf] [.unsentFrames] (s.judged interval (s.align.epoch.map (· + 1)))
      (countEdge (s.judged interval (s.align.epoch.map (· + 1)))) := .of_same (by simp) (by simp)
  rw [pulseArrives_eq]
  exact (counted.trans (listenPulse_says _)).before rfl rfl

theorem pulseArrives_says (interval : Nat) (s : State) : Says arrivalKinds [.unsentFrames] s (pulseArrives interval s) :=
  ((judged_says s interval (s.align.epoch.map (· + 1))).mono (by decide) (List.nil_subset _)).trans
    ((pulseArrives_after interval s).mono (by decide) (List.Subset.refl _))

theorem pulseArrives_align (interval : Nat) (s : State) :
    ∃ timing, (pulseArrives interval s).align =
      { s.align with
        epoch := s.align.epoch.map (· + 1)
        lastEpoch := s.align.epoch
        watch := (watchAfter s.align interval).1
        period := (watchAfter s.align interval).2
        timing := timing
        listened := if s.align.opState = .listening then min 255 (s.align.listened + 1) else s.align.listened } := by
  have arrived : (pulseArrives interval s).align =
      (listenPulse (countEdge (s.judged interval (s.align.epoch.map (· + 1))))).align := by
    rw [pulseArrives_eq]
    rfl
  have judged := judged_align s interval (s.align.epoch.map (· + 1))
  have counted : (countEdge (s.judged interval (s.align.epoch.map (· + 1)))).align =
      (s.judged interval (s.align.epoch.map (· + 1))).align := by simp
  refine ⟨(s.judged interval (s.align.epoch.map (· + 1))).align.timing, ?_⟩
  generalize (s.judged interval (s.align.epoch.map (· + 1))).align.timing = timing at judged
  rw [arrived, listenPulse_align, counted, judged]
  split <;> rfl

theorem pulseArrives_pulse (interval : Nat) (s : State) :
    (pulseArrives interval s).pulse =
      pulseWork (watchFaults interval s.align) (updateReached (s.judged interval (s.align.epoch.map (· + 1))))
        s.align.opState := by
  have op : (s.judged interval (s.align.epoch.map (· + 1))).align.opState = s.align.opState := by rw [judged_align]
  rw [← op, pulseArrives_eq]
  rfl

theorem markJudged_align (interval : Nat) (s : State) :
    ∃ timing, (s.markJudged interval).align =
      { s.align with
        epoch := some 0
        lastEpoch := s.align.epoch
        watch := (watchAfter s.align interval).1
        period := (watchAfter s.align interval).2
        timing := timing } := by
  have slip : (testSlip s).align = s.align := by simp
  have judged := judged_align (testSlip s) interval (some 0)
  rw [slip] at judged
  exact ⟨_, judged⟩

theorem markJudged_says (interval : Nat) (s : State) :
    Says [.markerSlip, .epochFault, .ulBarred, .busStuck] [] s (s.markJudged interval) :=
  ((testSlip_tells s).within.mono (by decide) (List.Subset.refl _)).trans
    ((judged_says _ _ _).mono (by decide) (List.Subset.refl _))

theorem listenPulse_inbound (s : State) : (listenPulse s).link.lost = s.link.lost := (listenPulse_says s).inbound.2.2

/-- In LISTENING a MARK has no effect beyond the judgement, the counts and the ABILITY. -/
theorem markWorked_listening {interval : Nat} {s : State} (op : s.align.opState = .listening) :
    s.markWorked interval = listenPulse (countContexts (s.markJudged interval)) := by
  have quiet : s.align.opState = .operating → ¬s.align.Faults interval := fun h => by rw [op] at h; cases h
  have stays : (s.markJudged interval).align.opState = .listening := by
    rw [State.markJudged, judged_align]
    simp [op]
  simp only [State.markWorked, markEntered_quiet quiet, markEffect, countContexts_keeps, stays]

/-- Settles O31: the conditions as the pulse leaves them, and the decision over the stations in ascending order. -/
theorem listeningEndsInOperating : Obligations.ListeningEndsInOperating := by
  refine ⟨fun interval s idle op => ?_, fun interval s idle op => ?_, fun s op => ?_⟩
  · have quiet : s.align.opState = .operating → ¬s.align.Faults interval := fun h => by rw [op] at h; cases h
    refine ⟨_, exec_epochPulse idle (by rw [op]; decide), ?_⟩
    have arrived := pulseArrives_arrived quiet
    obtain ⟨timing, align⟩ := pulseArrives_align interval s
    have lost := (pulseArrives_says interval s).inbound.2.2
    have opState : (pulseArrives interval s).align.opState = .listening := by rw [align]; exact op
    have decided : (pulseArrives interval s).pulse.decide = true := by rw [pulseArrives_pulse, op]; rfl
    show (takeTasks ownTasks (pulseArrives interval s)).align.opState = _
    rw [takeTasks_own_listening arrived.entry decided opState]
    refine if_congr ((listeningMet_iff _).trans ?_) rfl rfl
    rw [arrived.peers, lost, align, if_pos op, Option.isSome_map]
    refine and_congr_right fun _ => and_congr ?_ Iff.rfl
    show 16 ≤ min 255 (s.align.listened + 1) ↔ _
    omega
  · have quiet : s.align.opState = .operating → ¬s.align.Faults interval := fun h => by rw [op] at h; cases h
    refine ⟨_, exec_markPulse idle (by rw [op]; decide), ?_⟩
    have arrived := markArrives_arrived quiet
    obtain ⟨timing, judged⟩ := markJudged_align interval s
    have counted : (countContexts (s.markJudged interval)).align = (s.markJudged interval).align := rfl
    have align : (markArrives interval s).align =
        (listenPulse (countContexts (s.markJudged interval))).align := by
      rw [markArrives_eq, markWorked_listening op]
      rfl
    rw [listenPulse_align, counted, judged, if_pos op] at align
    have lost : (markArrives interval s).link.lost = s.link.lost := by
      rw [markArrives_eq, markWorked_listening op]
      exact (listenPulse_inbound _).trans (markJudged_says interval s).inbound.2.2
    have opState : (markArrives interval s).align.opState = .listening := by rw [align]; exact op
    have decided : (markArrives interval s).pulse.decide = true := by
      have work : (s.markWorked interval).align.opState = .listening := by
        rw [← opState, markArrives_eq]
        rfl
      rw [markArrives_eq, work]
      rfl
    refine ⟨?_, ?_⟩
    · show (takeTasks ownTasks (takeTasks [] (markArrives interval s))).align.epoch = _
      rw [takeTasks_epoch, takeTasks_epoch, align]
    · show (takeTasks ownTasks (markArrives interval s)).align.opState = _
      rw [takeTasks_own_listening arrived.entry decided opState]
      refine if_congr ((listeningMet_iff _).trans ?_) rfl rfl
      rw [arrived.peers, lost, align, Option.isSome_some, eq_self, true_and]
      refine and_congr ?_ Iff.rfl
      show 16 ≤ min 255 (s.align.listened + 1) ↔ _
      omega
  · refine ⟨fun unmet => ?_, fun met => ?_⟩
    · have no : listeningMet s = false := Bool.eq_false_iff.mpr fun h => unmet ((listeningMet_iff s).mp h)
      simp [testListening, no]
    · have entered : testListening s = enterOperating s := by
        simp [testListening, op, (listeningMet_iff s).mpr met]
      obtain ⟨align, edge, peers, incompatible, moded, notice⟩ := enterOperating_effect s
      obtain ⟨excluded, capable, length⟩ := decideBelow_spec s.config s.peers 8 (Nat.le_refl 8)
      rw [decideBelow_all] at excluded capable length
      obtain ⟨records, settle, flag⟩ := foldl_excludePeer (decideMode s.config s.peers).excluded s
      rw [entered]
      refine ⟨fun n => (decideBelow s.config s.peers n).running, (decideMode s.config s.peers).mode,
        State.eq_of_kept (enterOperating_keeps s), align, edge, by rw [peers, settle], rfl, ?_, rfl, moded,
        fun on room => notice on (by omega)⟩
      intro counted shared out
      have known (j : Station) : (s.peers.records.get j).countedAbility = counted j := by
        show (if (_ == _) = true then _ else _) = if _ then _ else _
        simp only [beq_iff_eq]
      have outIff (j : Station) : isOut s.config s.peers j ↔ out j := by
        unfold isOut
        rw [known]
        rfl
      have member (j : Station) : j ∈ (decideMode s.config s.peers).excluded ↔ out j := by
        rw [excluded, outIff]
        exact and_iff_right j.isLt
      refine ⟨fun j a h stays => ?_, fun j h => ?_, fun j h => ?_, fun j h => ?_, ?_, ?_⟩
      · show (decideBelow s.config s.peers (j.val + 1)).running = _
        rw [decideBelow_in ((known j).trans h) ((outIff j).not.mpr stays)]
        rfl
      · show (decideBelow s.config s.peers (j.val + 1)).running = _
        rcases h with none | h
        · rw [decideBelow_uncounted ((known j).trans none)]
        · rw [decideBelow_out ((outIff j).mpr h)]
      · rw [peers, records, if_pos ((member j).mpr h)]
      · rw [peers, records, if_neg fun mem => h ((member j).mp mem)]
      · refine capable.trans (and_congr_right fun _ => forall_congr' fun j => ?_)
        simp only [known, outIff]
        exact ⟨fun h => h j.isLt, fun h _ => h⟩
      · rw [incompatible, flag]
        refine or_congr_right (exists_congr fun j => ?_)
        rw [member, Peer.incompatible, Bool.or_eq_false_iff]

end Sys2Proof.Machine
end


section
/-!
PROOFS. The start of a run at a pulse in OPERATING (R59, R60, R63, R66, R109 to R115).
-/
namespace Sys2Proof.Machine

open Sys2Proof

/-! ## The fresh grids -/

theorem length_paint_row (g : Grid) (band width slot height : Nat) (t : Tile) (b : Nat) :
    ((paint g band width slot height t).getD b []).length = (g.getD b []).length := by
  rw [getD_paint]
  split
  · exact paintSlots_length _ slot height t
  · rfl

theorem tileAt_freeGrid {n band slot : Nat} (hb : band < n) (hs : slot < 8) : tileAt (freeGrid n) band slot = .free := by
  simp only [tileAt, freeGrid, Config.slots, List.getD_eq_getElem?_getD, List.getElem?_replicate, hb, if_true,
    Option.getD_some, hs]

/-- A carried tile is CARRIED, every other one FREE (R66). -/
theorem tileAt_carriedGrid {n band slot : Nat} (carry : List (Nat × Nat)) (hb : band < n) (hs : slot < 8) :
    tileAt (carriedGrid n carry) band slot = if (band, slot) ∈ carry then .carried else .free := by
  have painted (l : List (Nat × Nat)) (g : Grid) (row : (g.getD band []).length = 8) :
      tileAt (l.foldl (fun g t => paint g t.1 1 t.2 1 .carried) g) band slot =
        if (band, slot) ∈ l then .carried else tileAt g band slot := by
    induction l generalizing g with
    | nil => simp
    | cons t l ih =>
      rw [List.foldl_cons, ih _ (by rw [length_paint_row, row]), tileAt_paint, row]
      have here : ((t.1 ≤ band ∧ band < t.1 + 1) ∧ t.2 ≤ slot ∧ slot < t.2 + 1 ∧ slot < 8) ↔ (band, slot) = t := by
        rw [Prod.ext_iff]
        omega
      simp only [here, List.mem_cons]
      by_cases mine : (band, slot) = t <;> by_cases later : (band, slot) ∈ l <;> simp [mine, later]
  rw [carriedGrid, painted, tileAt_freeGrid hb hs]
  simp [freeGrid, List.getD_eq_getElem?_getD, hb, Config.slots]

/-! ## The run that starts -/

/-- The run that a state begins for a target. -/
def State.newRun (s : State) (target : Epoch) (m : Mode) : Run :=
  let sn := takeSnapshot target m.bands (computeAllowance target s)
  { target := target, snapshot := sn, dlOrder := orderOf sn target .dl, ulOrder := orderOf sn target .ul
    dlGrid := freeGrid m.bands.bands, ulGrid := carriedGrid m.bands.bands sn.carry }

/-- The allowance that a state computes (R109). -/
def State.allowance (s : State) : Nat := allowanceOf s.config s.power.pPrev (claimSum s.peers)

theorem beginRun_effect (target : Epoch) (m : Mode) (s : State) :
    (beginRun target m s).engine = { s.engine with run := some (s.newRun target m) } ∧
      (beginRun target m s).power =
        { s.power with allowance := some s.allowance, powerFloor := powerFloorOf s.config s.allowance } ∧
      ((beginRun target m s).events.flag .shortage = true ↔
        s.events.flag .shortage = true ∨ s.power.powerFloor = 0 ∧ 0 < powerFloorOf s.config s.allowance) := by
  refine ⟨by simp [beginRun, State.newRun], ?_, ?_⟩
  · have kept : (beginRun target m s).power = (computeAllowance target s).power := rfl
    rw [kept, computeAllowance_power]
    rfl
  · have kept : (beginRun target m s).events = (computeAllowance target s).events := rfl
    rw [kept]
    have whole : computeAllowance target s =
        (let held := { s with power := { s.power with allowance := some s.allowance
                                                      powerFloor := powerFloorOf s.config s.allowance } }
         if s.power.powerFloor = 0 ∧ 0 < powerFloorOf s.config s.allowance then
           setEvent .shortage target.val (.figure (powerFloorOf s.config s.allowance)) held
         else held) := rfl
    rw [whole]
    dsimp only
    split
    · next rises => simp [rises]
    · next flat => simp [flat]

/-- The snapshot of a run, by the state that starts it. -/
theorem newRun_snapshot (s : State) (target : Epoch) (m : Mode) :
    (s.newRun target m).snapshot =
      { contexts := (s.contexts.positions fun c => c.state != .free).map fun i => snapContext i (ctx s i)
        redo := s.tracking.redo.filter fun e => !earlier e.deadline (now s)
        allowance := s.allowance
        powerFloor := powerFloorOf s.config s.allowance
        requestedFloor := s.engine.requestedFloor
        carry := if s.engine.carrySource = some (target - 1) then s.engine.carryTiles else []
        ownSet := ownSetForRun s
        blockedSet := blockedSet s
        epoch := now s
        bands := m.bands
        slotTime := slotTime s
        edgeGrade := s.config.edgeGrade
        quietGrade := s.config.quietGrade
        ageLimit := s.config.ageLimit
        advanceLimit := s.config.advanceLimit
        tailGuard := s.config.tailGuard
        maxShadow := s.config.maxShadow } := by
  have same (i : Index) : ctx (computeAllowance target s) i = ctx s i := ctx_congr (by simp) i
  simp only [State.newRun, takeSnapshot, computeAllowance_power, computeAllowance_keeps, now, slotTime, ownSetForRun, blockedSet,
    edgeOn, bandsOf, same]
  rfl

/-- What a run that starts in OPERATING makes of a state. -/
theorem startRun_begins {s : State} {m : Mode} (op : s.align.opState = .operating) (mode : s.align.mode = some m) :
    startRun s = beginRun (now s + 2) m (abortRun true s) := by
  simp only [startRun, op, beq_self_eq_true, if_true, abortRun_keeps, mode, now]
  rfl

theorem startRun_effect {s : State} {m : Mode} {e : Epoch} (op : s.align.opState = .operating)
    (mode : s.align.mode = some m) (epoch : s.align.epoch = some e) :
    startRun s = beginRun (e + 2) m (abortRun true s) := by
  rw [startRun_begins op mode, now_of_epoch epoch]

/-! ## The parts beside the entry, the listening test and the start -/

/-- The events that the other parts of a pulse's work may set. -/
def asideKinds : List EventKind := voidKinds ++ .attachTimeout :: frameKinds

/-- A part of a pulse's work that is neither the entry to HOLDING, nor the listening test, nor the start of a run, or one
that is not due. -/
def State.aside (s : State) (k : PulseTask) : Prop :=
  (k = .entry → s.pulse.entry = false) ∧ (k = .decide → s.pulse.decide = false) ∧ (k = .start → s.pulse.start = false)

theorem takeTask_aside {k : PulseTask} {s : State} (h : s.aside k) :
    (takeTask s k).engine = s.engine ∧ (takeTask s k).power = s.power ∧ (takeTask s k).align = s.align ∧
      Says asideKinds voidCounters s (takeTask s k) := by
  obtain ⟨entry, decide, start⟩ := h
  have notDue (off : s.pulse.due k = false) :
      (takeTask s k).engine = s.engine ∧ (takeTask s k).power = s.power ∧ (takeTask s k).align = s.align ∧
        Says asideKinds voidCounters s (takeTask s k) := by
    rw [takeTask_notDue off]
    exact ⟨rfl, rfl, rfl, .refl s⟩
  have frames : frameKinds ⊆ asideKinds := by decide
  have said (kinds : taskKinds k ⊆ asideKinds) (counters : taskCounters k ⊆ voidCounters) :
      Says asideKinds voidCounters s (takeTask s k) := (takeTask_says k s).mono kinds counters
  cases k with
  | entry => exact notDue (entry rfl)
  | decide => exact notDue (decide rfl)
  | start => exact notDue (start rfl)
  | announce | ability =>
    refine ⟨?_, ?_, ?_, said frames (List.nil_subset _)⟩ <;>
      (simp only [takeTask, whenHearing]; split <;> (try split) <;> simp)
  | _ => exact ⟨by simp [takeTask], by simp [takeTask], by simp [takeTask], said (by decide) (by decide)⟩

/-- Beside an entry and a start, a record of the Batch Ring that is not SENT is kept. -/
theorem takeTask_ring {k : PulseTask} {s : State} (h : s.aside k) {p : Fin 16}
    (notSent : (s.tracking.ring.get p).status ≠ .sent) :
    (takeTask s k).tracking.ring.get p = s.tracking.ring.get p := by
  obtain ⟨entry, decide, start⟩ := h
  have notDue (off : s.pulse.due k = false) : (takeTask s k).tracking.ring.get p = s.tracking.ring.get p := by
    rw [takeTask_notDue off]
  have kept (same : (takeTask s k).tracking.ring = s.tracking.ring) :
      (takeTask s k).tracking.ring.get p = s.tracking.ring.get p := by rw [same]
  cases k with
  | entry => exact notDue (entry rfl)
  | decide => exact notDue (decide rfl)
  | start => exact notDue (start rfl)
  | announce | ability =>
    refine kept ?_
    simp only [takeTask, whenHearing]
    split <;> (try split) <;> simp
  | batchVoid =>
    show (takeVoid s).tracking.ring.get p = _
    unfold takeVoid
    split
    · dsimp only
      split
      · unfold voidAtTarget
        split
        · next sent =>
          rw [(voidBatch_tracking ..).2, Table.get_set_ne]
          rintro rfl
          simp only [batchIs, batchOf, Bool.and_eq_true, beq_iff_eq] at sent
          exact notSent sent.2
        · rfl
      · rfl
    · rfl
  | grantExpiry =>
    refine kept ?_
    show (takeExpiry s).tracking.ring = _
    unfold takeExpiry
    split
    · dsimp only
      split
      · exact (foldl_failEntry_tracking ..).2
      · rfl
    · rfl
  | redoDrop =>
    refine kept ?_
    show (takeDrop s).tracking.ring = _
    unfold takeDrop
    split
    · dsimp only
      split
      · rw [dropDeadlines_tracking]
      · rfl
    · rfl
  | _ => exact kept (by simp [takeTask])

theorem aside_taken {k : PulseTask} {s : State} (entry : s.pulse.entry = false) (decide : s.pulse.decide = false) :
    (takeTask s k).pulse.entry = false ∧ (takeTask s k).pulse.decide = false ∧
      (s.pulse.start = false → (takeTask s k).pulse.start = false) := by
  have off {j : PulseTask} (h : s.pulse.due j = false) : (takeTask s k).pulse.due j = false := by
    rw [takeTask_pulse]
    exact Bool.eq_false_iff.mpr fun on => by rw [PulseWork.due_taken on] at h; cases h
  exact ⟨off (j := .entry) entry, off (j := .decide) decide, fun start => off (j := .start) start⟩

/-! ## A pulse in OPERATING, with its work in any order -/

/-- What the start of a run reads of the state before the pulse `s`, at epoch `e` of the pulse. -/
structure State.Ready (s : State) (e : Epoch) (v : State) : Prop where
  engine : v.engine = s.engine
  power : v.power = s.power
  config : v.config = s.config
  op : v.align.opState = .operating
  mode : v.align.mode = s.align.mode
  epoch : v.align.epoch = some e

/-- The run is not yet started. -/
structure State.Waiting (s : State) (e : Epoch) (u : State) : Prop extends s.Ready e u where
  entry : u.pulse.entry = false
  decide : u.pulse.decide = false
  missed : u.events.flag .planMissed = s.events.flag .planMissed
  shortage : u.events.flag .shortage = s.events.flag .shortage
  count : u.events.counter .plansMissed = s.events.counter .plansMissed

/-- The run has started, from a state that was ready. -/
structure State.Started (s : State) (e : Epoch) (m : Mode) (u : State) : Prop where
  entry : u.pulse.entry = false
  decide : u.pulse.decide = false
  start : u.pulse.start = false
  op : u.align.opState = .operating
  run : ∃ v, s.Ready e v ∧ u.engine = { s.engine with run := some ((abortRun true v).newRun (e + 2) m) } ∧
    u.power =
      { pPrev := if s.engine.run.isSome then 0 else s.power.pPrev
        allowance := some (abortRun true v).allowance
        powerFloor := powerFloorOf s.config (abortRun true v).allowance } ∧
    (u.events.flag .shortage = true ↔
      s.events.flag .shortage = true ∨
        s.power.powerFloor = 0 ∧ 0 < powerFloorOf s.config (abortRun true v).allowance)
  missed : u.events.flag .planMissed = true ↔ s.events.flag .planMissed = true ∨ s.engine.run.isSome = true
  count : u.events.counter .plansMissed =
    if s.engine.run.isSome then min 65535 (s.events.counter .plansMissed + 1) else s.events.counter .plansMissed
  ring : ∀ a, s.engine.run = some a →
    u.tracking.ring.get (ringIndex a.target) = { target := some a.target, status := .missed }

theorem State.Waiting.aside {s u : State} {e : Epoch} (h : s.Waiting e u) {k : PulseTask} (other : k ≠ .start) :
    s.Waiting e (takeTask u k) := by
  obtain ⟨engine, power, align, reports⟩ := takeTask_aside (k := k) ⟨fun _ => h.entry, fun _ => h.decide, fun same => absurd same other⟩
  obtain ⟨entry, decide, -⟩ := aside_taken (k := k) h.entry h.decide
  exact
    { engine := engine.trans h.engine
      power := power.trans h.power
      config := by simpa using h.config
      op := by rw [align, h.op]
      mode := by rw [align, h.mode]
      epoch := by rw [align, h.epoch]
      entry := entry
      decide := decide
      missed := (reports.flags _ (by decide)).trans h.missed
      shortage := (reports.flags _ (by decide)).trans h.shortage
      count := (reports.counters _ (by decide)).trans h.count }

theorem State.Waiting.starts {s u : State} {e : Epoch} {m : Mode} (mode : s.align.mode = some m) (h : s.Waiting e u)
    (due : u.pulse.start = true) : s.Started e m (takeTask u .start) := by
  generalize hv : { u with pulse := { u.pulse with start := false } } = v
  have ready : s.Ready e v := by
    subst hv
    exact ⟨h.engine, h.power, h.config, h.op, h.mode, h.epoch⟩
  have events : v.events = u.events := by rw [← hv]
  have taken : takeTask u .start = beginRun (e + 2) m (abortRun true v) := by
    show takeStart u = _
    rw [takeStart, due, if_pos rfl, hv, startRun_effect ready.op (by rw [ready.mode, mode]) ready.epoch]
  obtain ⟨entry, decide, -⟩ := aside_taken (k := .start) h.entry h.decide
  obtain ⟨engine, power, shortage⟩ := beginRun_effect (e + 2) m (abortRun true v)
  have aborted := abortRun_tells true v
  have begun := beginRun_says (e + 2) m (abortRun true v)
  have missed := abortRun_missed true v
  have pulse : (takeTask u .start).pulse.start = false := by rw [takeTask_pulse]; rfl
  have powerAborted : (abortRun true v).power =
      { s.power with pPrev := if s.engine.run.isSome then 0 else s.power.pPrev } := by
    rw [abortRun_power, ready.engine, ready.power]
    split <;> rfl
  have configAborted : (abortRun true v).config = s.config := by simp [ready.config]
  rw [taken] at entry decide pulse ⊢
  refine ⟨entry, decide, pulse, by simpa using ready.op, ⟨v, ready, ?_, ?_, ?_⟩, ?_, ?_, fun a run => ?_⟩
  · rw [engine, abortRun_engine, ready.engine]
  · rw [power, powerAborted, configAborted]
  · rw [shortage, aborted.within.flags _ (by decide), events, h.shortage, powerAborted, configAborted]
  · rw [begun.flags _ (by decide), missed.1, events, h.missed, ready.engine, Bool.or_eq_true]
  · rw [begun.counters _ List.not_mem_nil, missed.2, events, h.count, ready.engine]
  · have ring : (beginRun (e + 2) m (abortRun true v)).tracking = (abortRun true v).tracking := by simp
    have same : v.engine.run = some a := by rw [ready.engine, run]
    rw [ring, abortRun_tracking, same]
    simp

theorem State.Started.aside {s u : State} {e : Epoch} {m : Mode} (h : s.Started e m u) (k : PulseTask) :
    s.Started e m (takeTask u k) := by
  have beside : u.aside k := ⟨fun _ => h.entry, fun _ => h.decide, fun _ => h.start⟩
  obtain ⟨engine, power, align, reports⟩ := takeTask_aside beside
  obtain ⟨entry, decide, start⟩ := aside_taken (k := k) h.entry h.decide
  obtain ⟨v, ready, run, figures, shortage⟩ := h.run
  refine ⟨entry, decide, start h.start, by rw [align, h.op], ⟨v, ready, engine.trans run, power.trans figures, ?_⟩, ?_, ?_,
    fun a same => ?_⟩
  · rw [reports.flags _ (by decide), shortage]
  · rw [reports.flags _ (by decide), h.missed]
  · rw [reports.counters _ (by decide), h.count]
  · rw [takeTask_ring beside (by rw [h.ring a same]; simp), h.ring a same]

theorem PulseWork.start_taken {k : PulseTask} (w : PulseWork) (other : k ≠ .start) : (w.taken k).start = w.start := by
  cases k with
  | start => exact absurd rfl other
  | update =>
    unfold taken
    dsimp only
    split <;> rfl
  | _ => rfl

/-- Whatever the order, the run waits until its start and stays after it. -/
theorem takeTasks_started (l : List PulseTask) {s u : State} {e : Epoch} {m : Mode} (mode : s.align.mode = some m)
    (h : s.Waiting e u ∧ u.pulse.start = true ∨ s.Started e m u) :
    s.Waiting e (takeTasks l u) ∧ (takeTasks l u).pulse.start = true ∨ s.Started e m (takeTasks l u) := by
  refine List.foldlRecOn (motive := fun u => s.Waiting e u ∧ u.pulse.start = true ∨ s.Started e m u) l takeTask h
    fun u hu k _ => ?_
  rcases hu with ⟨waiting, due⟩ | started
  · by_cases isStart : k = .start
    · subst isStart
      exact .inr (waiting.starts mode due)
    · refine .inl ⟨waiting.aside isStart, ?_⟩
      rw [takeTask_pulse, PulseWork.start_taken _ isStart, due]
  · exact .inr (started.aside k)

/-- After the parts inside a pulse command the run has started. -/
theorem takeTasks_own_started {s u : State} {e : Epoch} {m : Mode} (mode : s.align.mode = some m)
    (h : s.Waiting e u ∧ u.pulse.start = true ∨ s.Started e m u) : s.Started e m (takeTasks ownTasks u) := by
  refine (takeTasks_started ownTasks mode h).resolve_left fun ⟨_, due⟩ => ?_
  have third := takeTask_pulse .start (takeDecide (takeEntry u))
  have fourth := takeTask_pulse .counts (takeStart (takeDecide (takeEntry u)))
  have fifth := takeTask_pulse .ageing (takeCounts (takeStart (takeDecide (takeEntry u))))
  simp only [takeTask] at third fourth fifth
  rw [takeTasks_own, fifth, fourth, third] at due
  cases due

/-- A pulse within tolerance arrives in OPERATING with the run waiting. -/
theorem pulseArrives_waiting {interval : Nat} {s : State} {e : Epoch} (op : s.align.opState = .operating)
    (quiet : ¬s.align.Faults interval) (epoch : s.align.epoch = some e) :
    s.Waiting (e + 1) (pulseArrives interval s) ∧ (pulseArrives interval s).pulse.start = true := by
  obtain ⟨timing, align⟩ := pulseArrives_align interval s
  have arrived := pulseArrives_says interval s
  have faults : watchFaults interval s.align = false := Bool.eq_false_iff.mpr ((watchFaults_iff _ _).not.mpr quiet)
  have work := pulseArrives_pulse interval s
  rw [faults, op] at work
  exact
    ⟨{ engine := by simp
       power := by simp
       config := by simp
       op := by rw [align]; exact op
       mode := by rw [align]
       epoch := by rw [align, epoch]; rfl
       entry := by rw [work]; rfl
       decide := by rw [work]; rfl
       missed := arrived.flags _ (by decide)
       shortage := arrived.flags _ (by decide)
       count := arrived.counters _ (by decide) }, by rw [work]; rfl⟩

/-! ## What the statement says of the snapshot -/

theorem claimSum_eq (t : PeerTable) :
    claimSum t =
      ((List.finRange 8).map fun j =>
        if (t.records.get j).state = .absent then 0 else (t.records.get j).claim).sum := by
  rw [claimSum, Table.list_eq_map, List.map_map]
  refine congrArg List.sum (List.map_congr_left fun j _ => ?_)
  simp [Peer.countedClaim]

/-- The blocked set, position by position (R123). -/
theorem getLsbD_blockedSet (s : State) {m : Mode} (mode : s.align.mode = some m) {b : Nat} (hb : b < 24) :
    (blockedSet s).getLsbD b = true ↔
      m.edge = true ∧ b < m.bands.bands ∧
        ∃ j : Station,
          let p := s.peers.records.get j
          p.adjacent = true ∧ p.state ≠ .absent ∧ p.excluded = false ∧ p.mismatch = false ∧
            p.reserved.getLsbD b = true := by
  have union (l : List Peer) (u : SubBands) :
      (l.foldl (fun u p => u ||| p.reserved) u).getLsbD b = (u.getLsbD b || l.any fun p => p.reserved.getLsbD b) := by
    induction l generalizing u with
    | nil => simp
    | cons p l ih => rw [List.foldl_cons, ih, List.any_cons, BitVec.getLsbD_or, Bool.or_assoc]
  have mask : (bandMask m.bands.bands).getLsbD b = decide (b < m.bands.bands) := by
    rw [bandMask, BitVec.getLsbD_ofNat, Nat.testBit_two_pow_sub_one, decide_eq_true hb, Bool.true_and]
  have some_peer : ((s.peers.records.list.filter Peer.blocks).any fun p => p.reserved.getLsbD b) = true ↔
      ∃ j : Station,
        let p := s.peers.records.get j
        p.adjacent = true ∧ p.state ≠ .absent ∧ p.excluded = false ∧ p.mismatch = false ∧
          p.reserved.getLsbD b = true := by
    simp only [Table.list_eq_map, List.any_filter, List.any_map, List.any_eq_true, List.mem_finRange, true_and,
      Function.comp_apply, Bool.and_eq_true, Peer.blocks, Peer.incompatible, bne_iff_ne, Bool.not_eq_true',
      Bool.or_eq_false_iff, and_assoc]
  simp only [blockedSet, edgeOn, bandsOf, mode]
  cases on : m.edge with
  | true =>
    rw [if_pos rfl, BitVec.getLsbD_and, union, mask, Bool.and_eq_true, BitVec.getLsbD_zero, Bool.false_or, some_peer,
      decide_eq_true_eq, and_comm]
    simp
  | false => simp

/-- The snapshot holds the figures of a context that is not FREE (R60). -/
theorem find_snapContexts (s : State) (i : Index) :
    (((s.contexts.positions fun c => c.state != .free).map fun i => snapContext i (ctx s i)).find? fun x =>
      x.index == i) = if (ctx s i).state = .free then none else some (snapContext i (ctx s i)) := by
  have mem : (i ∈ s.contexts.positions fun c => c.state != .free) ↔ (ctx s i).state ≠ .free := by
    rw [Table.mem_positions, bne_iff_ne]
    rfl
  have index (j : Index) : ((snapContext j (ctx s j)).index == i) = (j == i) := rfl
  rw [List.find?_map]
  simp only [Function.comp_def, index]
  cases found : (s.contexts.positions fun c => c.state != .free).find? fun j => j == i with
  | none =>
    have absent : i ∉ s.contexts.positions fun c => c.state != .free := fun h => by
      simpa using List.find?_eq_none.mp found i h
    rw [if_pos (not_not.mp (mem.not.mp absent))]
    rfl
  | some j =>
    have same : j = i := by simpa using List.find?_some found
    have held := List.mem_of_find?_eq_some found
    rw [same] at held
    rw [if_neg (mem.mp held), same]
    rfl

/-! ## The run started before the pulse's other work -/

/-- With no part taken earlier, the run starts on the state that arrives. -/
theorem takeTasks_own_starts {u : State} {m : Mode} {n : Epoch} (entry : u.pulse.entry = false)
    (decide : u.pulse.decide = false) (start : u.pulse.start = true) (op : u.align.opState = .operating)
    (mode : u.align.mode = some m) (epoch : u.align.epoch = some n) :
    takeTasks ownTasks u =
      takeAgeing (takeCounts (beginRun (n + 2) m
        (abortRun true { u with pulse := { u.pulse with start := false } }))) := by
  have decided : takeDecide u = u := takeTask_notDue (k := .decide) decide
  rw [takeTasks_own_noEntry entry, decided, takeStart, start, if_pos rfl]
  exact congrArg (fun x => takeAgeing (takeCounts x)) (startRun_effect op mode epoch)

/-- What the arrival of a pulse leaves for the run that starts at once, with the period set before. -/
theorem pulseArrives_rest {interval : Nat} {s : State}
    (set : s.align.watch ≠ .unset ∨ s.align.Faults interval) :
    (pulseArrives interval s).contexts = s.contexts ∧
      (pulseArrives interval s).tracking = { s.tracking with serial := 0 } ∧
      (pulseArrives interval s).edge.ownSet = s.edge.ownSet ∧ (pulseArrives interval s).edge.demand = s.edge.demand := by
  have contexts := judged_contexts (s := s) (interval := interval) (s.align.epoch.map (· + 1)) set
  obtain ⟨-, -, edge, -, -, -, -, tracking⟩ := judged_rest s interval (s.align.epoch.map (· + 1))
  have counted (u : State) : (countEdge u).edge.ownSet = u.edge.ownSet ∧ (countEdge u).edge.demand = u.edge.demand := by
    unfold countEdge
    split <;> exact ⟨rfl, rfl⟩
  rw [pulseArrives_eq]
  dsimp only
  generalize s.judged interval (s.align.epoch.map (· + 1)) = j at *
  have same : (listenPulse (countEdge j)).edge = (countEdge j).edge := by simp
  refine ⟨?_, ?_, ?_, ?_⟩
  · simp [openPulse, contexts]
  · simp [openPulse, tracking]
  · show (listenPulse (countEdge j)).edge.ownSet = _
    rw [same, (counted j).1, edge]
  · show (listenPulse (countEdge j)).edge.demand = _
    rw [same, (counted j).2, edge]

/-- Outside a pulse that sets the period, T_slot stays. -/
theorem watchAfter_period {a : Alignment} (interval : Nat) (set : a.watch ≠ .unset) :
    (watchAfter a interval).2 = a.period := by
  unfold watchAfter
  cases watch : a.watch with
  | unset => exact absurd watch set
  | _ => rfl

theorem judgeBus_tells (s : State) : Tells [.busStuck] [] 1 s (judgeBus s) := by
  unfold judgeBus
  dsimp only
  split
  · exact (setEvent_tells _ _ _ _).after rfl rfl
  · exact .of_same rfl rfl

/-- Within tolerance, with the period set before, a judgement reports at most BUS_STUCK. -/
theorem judged_tells {interval : Nat} {s : State} (count : Option Epoch) (quiet : ¬s.align.Faults interval)
    (set : s.align.watch ≠ .unset) : Tells [.busStuck] [] 1 s (s.judged interval count) := by
  have judged := judgeWatch_regular (s := setEpoch count s) quiet set
  rw [State.judged, judged]
  exact (judgeBus_tells _).after rfl rfl

/-- Outside LISTENING the arrival of a pulse reports what its judgement does. -/
theorem pulseArrives_tells {ks : List EventKind} {n interval : Nat} {s : State}
    (judged : Tells ks [] n s (s.judged interval (s.align.epoch.map (· + 1)))) (op : s.align.opState ≠ .listening) :
    Tells ks [] n s (pulseArrives interval s) := by
  have stays : (countEdge (s.judged interval (s.align.epoch.map (· + 1)))).align.opState ≠ .listening := by
    rw [(countEdge_keeps _).2.2.2.2.2.2.2.1, judged_align]
    exact op
  rw [pulseArrives_eq]
  dsimp only
  rw [listenPulse_elsewhere stays]
  have counted : Tells ks [] 0 (s.judged interval (s.align.epoch.map (· + 1)))
      (countEdge (s.judged interval (s.align.epoch.map (· + 1)))) := .of_same (by simp) (by simp)
  have opened (w : PulseWork) (u : State) : Tells ks [] 0 u (openPulse w u) := .of_same rfl rfl
  exact (judged.trans counted).trans (opened _ _)

/-- The state from which a run that starts at once begins, after the abort of the run in flight. -/
structure State.Begins (s : State) (e : Epoch) (m : Mode) (w : State) : Prop where
  contexts : w.contexts = s.contexts
  peers : w.peers = s.peers
  engine : w.engine = { s.engine with run := none }
  prev : w.power.pPrev = if s.engine.run.isSome then 0 else s.power.pPrev
  config : w.config = s.config
  mode : w.align.mode = some m
  epoch : w.align.epoch = some e
  period : w.align.period = s.align.period
  ownSet : w.edge.ownSet = s.edge.ownSet
  ogt : w.tracking.ogt = s.tracking.ogt
  redo : w.tracking.redo = s.tracking.redo
  ring : ∀ p, (∀ a, s.engine.run = some a → ringIndex a.target ≠ p) →
    w.tracking.ring.get p = s.tracking.ring.get p
  notice : ∀ a, s.engine.run = some a → s.events.enabled .planMissed = true → s.link.queue.length ≤ 20 →
    missedNotice (some e) a.target ∈ w.link.queue

/-- With no part taken earlier, a pulse within tolerance starts its run on such a state. -/
theorem pulse_begins {interval : Nat} {s : State} {e : Epoch} {m : Mode} (op : s.align.opState = .operating)
    (mode : s.align.mode = some m) (epoch : s.align.epoch = some e) (set : s.align.watch ≠ .unset)
    (quiet : ¬s.align.Faults interval) :
    ∃ w, s.Begins (e + 1) m w ∧
      takeTasks ownTasks (pulseArrives interval s) = takeAgeing (takeCounts (beginRun (e + 1 + 2) m w)) := by
  obtain ⟨pending, start⟩ := pulseArrives_waiting op quiet epoch
  obtain ⟨timing, align⟩ := pulseArrives_align interval s
  obtain ⟨contexts, tracking, ownSet, -⟩ := pulseArrives_rest (interval := interval) (.inl set)
  have told := pulseArrives_tells (judged_tells _ quiet set) (by rw [op]; decide)
  have peers : (pulseArrives interval s).peers = s.peers := by simp
  have whole := takeTasks_own_starts (m := m) (n := e + 1) pending.entry pending.decide start pending.op
    (pending.mode.trans mode) pending.epoch
  have period : (pulseArrives interval s).align.period = s.align.period := by
    rw [align]
    exact watchAfter_period interval set
  have arrivedEpoch := pending.epoch
  refine ⟨_, ?_, whole⟩
  generalize hx : { pulseArrives interval s with pulse := { (pulseArrives interval s).pulse with start := false } } = x
  have events : x.events = (pulseArrives interval s).events := by rw [← hx]
  have link : x.link = (pulseArrives interval s).link := by rw [← hx]
  have xTracking : x.tracking = { s.tracking with serial := 0 } := by rw [← hx]; exact tracking
  have xEngine : x.engine = s.engine := by rw [← hx]; exact pending.engine
  have xPower : x.power = s.power := by rw [← hx]; exact pending.power
  have xAlign : x.align = (pulseArrives interval s).align := by rw [← hx]
  have wTracking := abortRun_tracking true x
  rw [xEngine, xTracking] at wTracking
  obtain ⟨-, wContexts, wEdge, wPeers, wAlign, wConfig, -⟩ := abortRun_keeps true x
  refine ⟨by rw [wContexts, ← hx]; exact contexts, by rw [wPeers, ← hx]; exact peers, by rw [abortRun_engine, xEngine], ?_,
    by rw [wConfig, ← hx]; exact pending.config, ?_, ?_, ?_, by rw [wEdge, ← hx]; exact ownSet, ?_, ?_, fun p free => ?_,
    fun a running on room => ?_⟩
  · rw [abortRun_power, xEngine, xPower]
    split <;> rfl
  · rw [wAlign, xAlign, pending.mode, mode]
  · rw [wAlign, xAlign, pending.epoch]
  · rw [wAlign, xAlign, period]
  · rw [wTracking]
    split <;> rfl
  · rw [wTracking]
    split <;> rfl
  · rw [wTracking]
    cases running : s.engine.run with
    | none => rfl
    | some a => exact Table.get_set_ne _ _ (Ne.symm (free a running))
  · have length := told.length
    have notice := abortRun_notice (b := true) (s := x) (by rw [xEngine, running])
      (by rw [events, told.within.enabled, on]) (by rw [link]; simp only [if_true]; omega)
    rwa [xAlign, arrivedEpoch] at notice

/-! ## The statement -/

/-- Settles O32, by the run that starts once in any order of the work. -/
theorem pulseInOperatingStartsRun : Obligations.PulseInOperatingStartsRun := by
  intro interval order m e s idle op mode epoch watch regular share
  have quiet : ¬s.align.Faults interval := by
    rintro (⟨unset, -⟩ | ⟨-, out⟩)
    · rw [watch] at unset
      cases unset
    · rw [regular] at out
      cases out
  have configured : s.align.opState ≠ .unconfigured := by rw [op]; decide
  have waiting := pulseArrives_waiting op quiet epoch
  have started := takeTasks_own_started mode (takeTasks_started order mode (.inl waiting))
  obtain ⟨v, ready, run, power, shortage⟩ := started.run
  generalize hr : (abortRun true v).newRun (e + 1 + 2) m = r at run
  have at_e : now (abortRun true v) = e + 1 := by simp [now, ready.epoch]
  have snapshot := newRun_snapshot (abortRun true v) (e + 1 + 2) m
  have target : e + 1 + 2 = e + 3 := by rw [add_assoc]; rfl
  have config : (abortRun true v).config = s.config := by simp [ready.config]
  have engine : (abortRun true v).engine = { s.engine with run := none } := by simp [ready.engine]
  have allowance : r.snapshot.allowance = (abortRun true v).allowance := by rw [← hr, snapshot]
  have floor : r.snapshot.powerFloor = powerFloorOf s.config (abortRun true v).allowance := by
    rw [← hr, snapshot, ← config]
  have bounds := floorShare_le_allowanceOf (p := s.config) (pPrev := (abortRun true v).power.pPrev)
    (claims := claimSum (abortRun true v).peers) share
  have bounds' := allowanceOf_le_budget (p := s.config) (pPrev := (abortRun true v).power.pPrev)
    (claims := claimSum (abortRun true v).peers)
  have computed : (abortRun true v).allowance =
      allowanceOf s.config (abortRun true v).power.pPrev (claimSum (abortRun true v).peers) := by
    rw [State.allowance, config]
  rw [← computed] at bounds bounds'
  refine ⟨_, r, exec_epochPulse idle configured, started.op, by rw [run], ?_, ?_, ?_, ?_, ?_, ?_, ?_, ?_, ?_, ?_, ?_, ?_,
    ?_, ?_, ?_, ?_, run, started.missed, started.count, started.ring, ?_, ?_⟩
  · rw [← hr, ← target]
    rfl
  · rw [← hr, snapshot, at_e]
  · rw [← hr, snapshot]
  · rw [← hr, snapshot, engine]
  · have before : e + 1 + 2 - 1 = e + 2 := by rw [add_right_comm, add_sub_cancel_right]
    rw [← hr, snapshot, engine, before]
  · rw [← hr]
    exact takeSnapshot_distinct ..
  · intro x hx
    rw [← hr, snapshot] at hx
    have eligible := (List.mem_filter.mp hx).2
    rw [at_e, Bool.not_eq_true'] at eligible
    by_contra late
    rw [(earlier_iff_not_lt _ _).mpr late] at eligible
    cases eligible
  · rw [← target, ← hr]
    rfl
  · rw [← target, ← hr]
    rfl
  · intro band slot hb hs
    rw [← hr]
    exact ⟨tileAt_freeGrid hb hs, tileAt_carriedGrid _ hb hs⟩
  · rw [power, allowance]
  · rw [power, floor]
  · rw [allowance]
    exact bounds
  · rw [allowance]
    exact bounds'
  · rw [power, allowance]
    rfl
  · rw [power]
  · rw [shortage, power]
  · intro first
    have set : s.align.watch ≠ .unset := by rw [watch]; decide
    obtain ⟨w, begins, whole⟩ := pulse_begins op mode epoch set quiet
    have t_eq : takeTasks ownTasks (takeTasks order (pulseArrives interval s)) =
        takeAgeing (takeCounts (beginRun (e + 1 + 2) m w)) := by rw [← whole, first]; rfl
    have wSnapshot := newRun_snapshot w (e + 1 + 2) m
    have same (i : Index) : ctx w i = ctx s i := ctx_congr begins.contexts i
    have at_w : now w = e + 1 := now_of_epoch begins.epoch
    have newRun : r = w.newRun (e + 1 + 2) m := by
      have engines := (congrArg State.engine t_eq).symm.trans run
      simp only [takeAgeing_keeps, takeCounts_keeps, (beginRun_effect (e + 1 + 2) m w).1, begins.engine, Engine.mk.injEq,
        Option.some.injEq] at engines
      exact engines.1.symm
    rw [← newRun] at wSnapshot
    have tTracking : (takeAgeing (takeCounts (beginRun (e + 1 + 2) m w))).tracking = w.tracking := by simp
    have tLink : (takeAgeing (takeCounts (beginRun (e + 1 + 2) m w))).link = (beginRun (e + 1 + 2) m w).link := by simp
    rw [t_eq]
    refine ⟨by rw [tTracking, begins.ogt], by rw [tTracking, begins.redo], fun p free => by rw [tTracking, begins.ring p free],
      fun a running on room => ?_, ?_, fun i => ?_, ?_, ?_, fun b hb => ?_, ?_, ?_, ?_, ?_, ?_, ?_, ?_⟩
    · rw [tLink]
      exact (beginRun_says _ _ w).records _ (begins.notice a running on room) rfl
    · rw [wSnapshot]
      show w.allowance = _
      rw [State.allowance, begins.prev, claimSum_eq, begins.peers, begins.config]
      rfl
    · rw [wSnapshot]
      refine (find_snapContexts w i).trans ?_
      rw [same]
      rfl
    · rw [wSnapshot, at_w, begins.redo]
      refine List.filter_congr fun x _ => ?_
      rw [earlier, ← decide_not]
      exact decide_eq_decide.mpr Nat.not_le
    · rw [wSnapshot]
      show ownSetForRun w = _
      simp only [ownSetForRun, edgeOn, begins.mode, begins.ownSet]
      rfl
    · rw [wSnapshot]
      refine (getLsbD_blockedSet w begins.mode hb).trans ?_
      rw [begins.peers]
    · rw [wSnapshot]
      show slotTime w = _
      rw [slotTime, begins.period]
      rfl
    all_goals
      rw [wSnapshot, begins.config]

end Sys2Proof.Machine
end


section
/-!
PROOFS. A MARK in OPERATING and in HOLDING: marker recovery, the end of HOLDING, and the deadlines restated (R104, R121,
R155, R157).
-/
namespace Sys2Proof.Machine

open Sys2Proof

/-! ## Alignment Control through the parts -/

/-- At most the operating state and the mode differ. -/
def Alignment.Moves (a b : Alignment) : Prop := ∃ o m, b = { a with opState := o, mode := m }

theorem Alignment.Moves.refl (a : Alignment) : a.Moves a := ⟨a.opState, a.mode, rfl⟩

theorem Alignment.Moves.trans {a b c : Alignment} : a.Moves b → b.Moves c → a.Moves c := by
  rintro ⟨_, _, rfl⟩ ⟨o, m, rfl⟩
  exact ⟨o, m, rfl⟩

theorem holdIfOperating_moves (s : State) : s.align.Moves (holdIfOperating s).align := by
  unfold holdIfOperating
  split
  · rw [(enterHolding_writes s).2.2.2]
    exact ⟨_, s.align.mode, rfl⟩
  · exact .refl _

/-- Only the entry to HOLDING and the listening test write Alignment Control. -/
theorem takeTask_align_kept {k : PulseTask} (s : State) (entry : k ≠ .entry) (decide : k ≠ .decide) :
    (takeTask s k).align = s.align := by
  cases k with
  | entry => exact absurd rfl entry
  | decide => exact absurd rfl decide
  | announce | ability =>
    simp only [takeTask, whenHearing]
    split <;> (try split) <;> simp
  | _ => simp [takeTask]

theorem takeTask_moves (k : PulseTask) (s : State) : s.align.Moves (takeTask s k).align := by
  by_cases entry : k = .entry
  · subst entry
    show s.align.Moves (takeEntry s).align
    unfold takeEntry
    split
    · exact holdIfOperating_moves { s with pulse := { s.pulse with entry := false } }
    · exact .refl _
  · by_cases decide : k = .decide
    · subst decide
      exact ⟨_, _, takeDecide_align s⟩
    · rw [takeTask_align_kept s entry decide]
      exact .refl _

theorem takeTasks_moves (l : List PulseTask) (s : State) : s.align.Moves (takeTasks l s).align :=
  List.foldlRecOn (motive := fun t : State => s.align.Moves t.align) l takeTask (.refl _) fun t ht k _ =>
    ht.trans (takeTask_moves k t)

/-! ## The passages of contexts and peers, all that is left after a MARK outside LISTENING -/

/-- A part that the MARK itself leaves: the ageing, a passage at a limit, or a frame from the line. -/
def isPassage : PulseTask → Bool
  | .ageing | .timeouts | .dormancy | .stale | .absent | .announce _ _ | .ability _ _ => true
  | .entry | .decide | .start | .counts | .batchVoid | .grantExpiry | .redoDrop | .holdDown | .update => false

/-- What the passages of a pulse can make of a context: as it was, freed after ADMITTING, or DORMANT after ACTIVE. -/
def Context.Passes (c x : Context) : Prop :=
  x = c ∨ c.state = .admitting ∧ x.state = .free ∧ x.outstanding = 0 ∨
    c.state = .active ∧ x.state = .dormant ∧ x.outstanding = c.outstanding

theorem Context.Passes.trans {c d x : Context} (h : c.Passes d) (g : d.Passes x) : c.Passes x := by
  rcases h with rfl | ⟨admitting, free, none⟩ | ⟨active, dormant, same⟩
  · exact g
  · rcases g with rfl | ⟨again, -⟩ | ⟨again, -⟩
    · exact .inr (.inl ⟨admitting, free, none⟩)
    · rw [free] at again
      cases again
    · rw [free] at again
      cases again
  · rcases g with rfl | ⟨again, -⟩ | ⟨again, -⟩
    · exact .inr (.inr ⟨active, dormant, same⟩)
    · rw [dormant] at again
      cases again
    · rw [dormant] at again
      cases again

theorem Context.Passes.free {c x : Context} (h : c.Passes x) (free : c.state = .free) : x = c := by
  rcases h with same | ⟨admitting, -⟩ | ⟨active, -⟩
  · exact same
  · rw [free] at admitting
    cases admitting
  · rw [free] at active
    cases active

theorem Context.Passes.settled {c x : Context} (h : c.Passes x) (state : c.state ≠ .closing) (none : c.outstanding = 0) :
    x.state ≠ .closing ∧ x.outstanding = 0 := by
  rcases h with rfl | ⟨-, free, zero⟩ | ⟨-, dormant, same⟩
  · exact ⟨state, none⟩
  · exact ⟨by rw [free]; decide, zero⟩
  · exact ⟨by rw [dormant]; decide, same.trans none⟩

theorem Context.Passes.outstanding {c x : Context} (h : c.Passes x) (state : c.state ≠ .admitting) :
    x.outstanding = c.outstanding := by
  rcases h with rfl | ⟨admitting, -⟩ | ⟨-, -, same⟩
  · rfl
  · exact absurd admitting state
  · exact same

/-- What the passages leave, and what they may report. -/
structure State.Spared (s t : State) : Prop where
  engine : t.engine = s.engine
  power : t.power = s.power
  edge : t.edge = s.edge
  align : t.align = s.align
  tracking : t.tracking = s.tracking
  contexts : ∀ i, (ctx s i).Passes (ctx t i)
  reports : Says (.attachTimeout :: frameKinds) [] s t

theorem State.Spared.refl (s : State) : s.Spared s := ⟨rfl, rfl, rfl, rfl, rfl, fun _ => .inl rfl, .refl s⟩

theorem State.Spared.trans {s t u : State} (h : s.Spared t) (g : t.Spared u) : s.Spared u :=
  ⟨g.engine.trans h.engine, g.power.trans h.power, g.edge.trans h.edge, g.align.trans h.align,
    g.tracking.trans h.tracking, fun i => (h.contexts i).trans (g.contexts i), h.reports.trans g.reports⟩

theorem timeoutContext_passes (s : State) (j i : Index) : (ctx s i).Passes (ctx (timeoutContext j s) i) := by
  unfold timeoutContext
  split
  · next due =>
    have admitting := ((timeoutDue_iff _ _).mp due).1
    have written : ctx (setEvent .attachTimeout j.val .none (enterFree j s)) i =
        if i = j then (ctx s j).freed else ctx s i :=
      (ctx_congr (s := enterFree j s) (by simp) i).trans (ctx_setCtx ..)
    rw [written]
    split
    · next same => exact .inr (.inl ⟨same ▸ admitting, rfl, rfl⟩)
    · exact .inl rfl
  · exact .inl rfl

theorem dormantContext_passes (s : State) (j i : Index) : (ctx s i).Passes (ctx (dormantContext j s) i) := by
  unfold dormantContext
  split
  · next due =>
    have active := ((dormancyDue_iff _ _).mp due).1
    rw [ctx_setCtx]
    split
    · next same => exact .inr (.inr ⟨same ▸ active, rfl, by rw [same]⟩)
    · exact .inl rfl
  · exact .inl rfl

theorem foldl_passes {f : State → Index → State} (h : ∀ s j i, (ctx s i).Passes (ctx (f s j) i)) (l : List Index)
    (s : State) (i : Index) : (ctx s i).Passes (ctx (l.foldl f s) i) :=
  List.foldlRecOn (motive := fun t => (ctx s i).Passes (ctx t i)) l f (.inl rfl) fun t ht j _ => ht.trans (h t j i)

theorem takeTask_spared {k : PulseTask} (passage : isPassage k = true) (s : State) : s.Spared (takeTask s k) := by
  have reports := takeTask_says k s
  have whole (same : (takeTask s k).engine = s.engine ∧ (takeTask s k).power = s.power ∧ (takeTask s k).edge = s.edge ∧
        (takeTask s k).align = s.align ∧ (takeTask s k).tracking = s.tracking)
      (contexts : ∀ i, (ctx s i).Passes (ctx (takeTask s k) i))
      (kinds : taskKinds k ⊆ .attachTimeout :: frameKinds ∧ taskCounters k ⊆ []) : s.Spared (takeTask s k) :=
    ⟨same.1, same.2.1, same.2.2.1, same.2.2.2.1, same.2.2.2.2, contexts, reports.mono kinds.1 kinds.2⟩
  have kept (same : (takeTask s k).contexts = s.contexts) (i : Index) : (ctx s i).Passes (ctx (takeTask s k) i) :=
    .inl (ctx_congr same i)
  cases k with
  | timeouts =>
    exact whole (by simp [takeTask]) (foldl_passes (fun t j i => timeoutContext_passes t j i) _ s) (by decide)
  | dormancy =>
    exact whole (by simp [takeTask]) (foldl_passes (fun t j i => dormantContext_passes t j i) _ s) (by decide)
  | ageing | stale | absent => exact whole (by simp [takeTask]) (kept (by simp [takeTask])) (by decide)
  | announce | ability =>
    have frames : frameKinds ⊆ .attachTimeout :: frameKinds := List.subset_cons_self _ _
    refine whole ?_ (kept ?_) ⟨frames, List.Subset.refl _⟩ <;>
      (simp only [takeTask, whenHearing]; split <;> (try split) <;> simp)
  | entry | decide | start | counts | batchVoid | grantExpiry | redoDrop | holdDown | update => cases passage

/-- No part but the passages is due. -/
def State.OnlyPasses (s : State) : Prop := ∀ k, isPassage k = false → s.pulse.due k = false

theorem takeTasks_spared (l : List PulseTask) {s : State} (h : s.OnlyPasses) : s.Spared (takeTasks l s) := by
  refine (List.foldlRecOn (motive := fun t => s.Spared t ∧ t.OnlyPasses) l takeTask ⟨.refl s, h⟩
    fun t ht k _ => ⟨ht.1.trans ?_, fun j hj => ?_⟩).1
  · cases passage : isPassage k with
    | true => exact takeTask_spared passage t
    | false =>
      rw [takeTask_notDue (ht.2 k passage)]
      exact .refl t
  · rw [takeTask_pulse]
    exact Bool.eq_false_iff.mpr fun due => by
      have := PulseWork.due_taken due
      rw [ht.2 j hj] at this
      cases this

/-- After a MARK outside LISTENING only the passages are left. -/
theorem markPulse_spared (interval : Nat) (order : List PulseTask) {s : State}
    (op : (s.markWorked interval).align.opState ≠ .listening) :
    (s.markWorked interval).Spared (takeTasks ownTasks (takeTasks order (markArrives interval s))) := by
  have opened : (s.markWorked interval).Spared (markArrives interval s) := by
    rw [markArrives_eq]
    exact ⟨rfl, rfl, rfl, rfl, rfl, fun _ => .inl rfl, .of_same rfl rfl⟩
  have only : (markArrives interval s).OnlyPasses := by
    intro k passage
    rw [markArrives_eq]
    cases k with
    | decide =>
      show ((s.markWorked interval).align.opState == .listening) = false
      simpa using op
    | entry | start | counts | batchVoid | grantExpiry | redoDrop | holdDown | update => rfl
    | _ => cases passage
  rw [← takeTasks_append]
  exact opened.trans (takeTasks_spared _ only)

/-! ## The count, the watch and MARKER_SLIP -/

/-- The events that a MARK may set before the blocks' parts, after its test for a slip. -/
def workedKinds : List EventKind := [.epochFault, .ulBarred, .busStuck] ++ holdKinds ++ markKinds

/-- The counters that it may advance. -/
def workedCounters : List Counter := .bytesLost :: holdCounters ++ abortCounters

theorem markEntered_says (interval : Nat) (s : State) :
    Says workedKinds workedCounters (testSlip s) (s.markEntered interval) := by
  have judged : Says workedKinds workedCounters (testSlip s) (s.markJudged interval) :=
    (judged_says _ _ _).mono (by decide) (by decide)
  unfold State.markEntered
  split
  · exact judged.trans ((holdIfOperating_says _).mono (by decide) (by decide))
  · exact judged

theorem markWorked_after (interval : Nat) (s : State) :
    Says markKinds markCounters (s.markEntered interval) (s.markWorked interval) := by
  have effect := markEffect_says (s.align.epoch.getD 1023) (countContexts (s.markEntered interval))
  exact (effect.after (s := s.markEntered interval) rfl rfl).trans ((listenPulse_says _).mono (by decide) (by decide))

theorem markWorked_says (interval : Nat) (s : State) :
    Says workedKinds workedCounters (testSlip s) (s.markWorked interval) :=
  (markEntered_says interval s).trans ((markWorked_after interval s).mono (by decide) (by decide))

theorem testSlip_flag {s : State} {e : Epoch} (epoch : s.align.epoch = some e) (slip : e ≠ 1023) :
    (testSlip s).events.flag .markerSlip = true := by
  simp [testSlip, epoch, slip]

/-- The flags of a MARK stay set through its work in any order. -/
theorem markPulse_kept (interval : Nat) (order : List PulseTask) (s : State) (k : EventKind)
    (h : (testSlip s).events.flag k = true) :
    (takeTasks ownTasks (takeTasks order (markArrives interval s))).events.flag k = true := by
  have worked := (markWorked_says interval s).kept k h
  have arrived : (markArrives interval s).events.flag k = true := by
    rw [markArrives_eq]
    exact worked
  rw [← takeTasks_append]
  exact (takeTasks_worked _ _).kept k arrived

/-- The count, the watch and the period that a MARK leaves. -/
structure Alignment.Marked (a : Alignment) (interval : Nat) (b : Alignment) : Prop where
  epoch : b.epoch = some 0
  watch : b.watch = (watchAfter a interval).1
  period : b.period = (watchAfter a interval).2

theorem Alignment.Marked.moves {a b c : Alignment} {interval : Nat} (h : a.Marked interval b) (moves : b.Moves c) :
    a.Marked interval c := by
  obtain ⟨o, m, rfl⟩ := moves
  exact ⟨h.epoch, h.watch, h.period⟩

theorem markEntered_marked (interval : Nat) (s : State) : s.align.Marked interval (s.markEntered interval).align := by
  have judged : s.align.Marked interval (s.markJudged interval).align := by
    obtain ⟨timing, align⟩ := markJudged_align interval s
    rw [align]
    exact ⟨rfl, rfl, rfl⟩
  unfold State.markEntered
  split
  · exact judged.moves (holdIfOperating_moves _)
  · exact judged

theorem markArrives_marked (interval : Nat) (s : State) : s.align.Marked interval (markArrives interval s).align := by
  have effect : s.align.Marked interval
      (markEffect (s.align.epoch.getD 1023) (countContexts (s.markEntered interval))).align := by
    rw [markEffect_align]
    exact (markEntered_marked interval s).moves ⟨_, _, rfl⟩
  have worked : s.align.Marked interval (s.markWorked interval).align := by
    rw [State.markWorked, listenPulse_align]
    split
    · exact ⟨effect.epoch, effect.watch, effect.period⟩
    · exact effect
  rw [markArrives_eq]
  exact worked

theorem markPulse_marked (interval : Nat) (order : List PulseTask) (s : State) :
    s.align.Marked interval (takeTasks ownTasks (takeTasks order (markArrives interval s))).align := by
  rw [← takeTasks_append]
  exact (markArrives_marked interval s).moves (takeTasks_moves _ _)

/-! ## The reports of an emptying of the tracking state -/

theorem foldl_released_events (l : List Index) (s : State) :
    let t := l.foldl (fun t i => setEvent .released i.val .done t) s
    t.events.remainder = s.events.remainder ∧ t.events.counter .bytesLost = s.events.counter .bytesLost ∧
      (t.events.flag .released = true ↔ s.events.flag .released = true ∨ l ≠ []) := by
  induction l generalizing s with
  | nil => simp
  | cons i l ih =>
    obtain ⟨remainder, counter, flag⟩ := ih (setEvent .released i.val .done s)
    exact ⟨remainder, counter, flag.trans (by simp)⟩

theorem foldl_released_queue (l : List Index) {s : State} (on : s.events.enabled .released = true)
    (room : s.link.queue.length + l.length ≤ 24) :
    (l.foldl (fun t i => setEvent .released i.val .done t) s).link.queue =
      s.link.queue ++ l.map fun i =>
        .notice { event := .released, subject := i.val, code := .done, epoch := s.align.epoch } := by
  induction l generalizing s with
  | nil => simp
  | cons i l ih =>
    rw [List.length_cons] at room
    have first := setEvent_queue (k := .released) (s := s) i.val .done on (by omega)
    have enabled := (setEvent_tells .released i.val .done s).within.enabled .released
    rw [List.foldl_cons, ih (enabled.trans on) (by rw [first]; simp; omega), first]
    simp

/-- What comes between a state `s` and the emptying of its tracking state at `y`, and between the emptying and `t`. -/
structure State.EmptiedAt (s y t : State) : Prop where
  redo : y.tracking.redo = s.tracking.redo
  contexts : ∀ i, (ctx y i).state = (ctx s i).state ∧ (ctx y i).attachNo = (ctx s i).attachNo
  before : ∃ ks cs, Says ks cs s y ∧ .released ∉ ks ∧ .bytesLost ∉ cs
  told : s.align.watch ≠ .unset → ∃ ks cs, Tells ks cs 5 s y
  after : ∃ ks cs, Says ks cs (emptyTracking y) t ∧ .released ∉ ks ∧ .bytesLost ∉ cs
  freed : ∀ i, (ctx y i).state = .closing → ctx t i = (ctx y i).freed
  epoch : t.align.epoch = y.align.epoch

theorem State.EmptiedAt.reported {s y t : State} (h : s.EmptiedAt y t) : s.EmptyingReported t := by
  obtain ⟨ks, cs, before, noReleased, noBytes⟩ := h.before
  obtain ⟨ks', cs', after, noReleased', noBytes'⟩ := h.after
  obtain ⟨events, link⟩ := emptyTracking_reports (s := y) (u := y) rfl rfl rfl
  have closing : ((List.finRange 256).filter fun i => decide ((ctx y i).state = .closing)) =
      (List.finRange 256).filter fun i => decide ((ctx s i).state = .closing) :=
    List.filter_congr fun i _ => by rw [(h.contexts i).1]
  rw [closing, h.redo] at events link
  have lost := (loseBytes_tells ((s.tracking.redo.map RedoEntry.bytes).sum) y)
  have remainder := remainder_loseBytes ((s.tracking.redo.map RedoEntry.bytes).sum) y
  have counter := counter_loseBytes ((s.tracking.redo.map RedoEntry.bytes).sum) y .bytesLost
  have epoch : (loseBytes ((s.tracking.redo.map RedoEntry.bytes).sum) y).align.epoch = t.align.epoch := by
    rw [h.epoch]
    simp
  generalize loseBytes ((s.tracking.redo.map RedoEntry.bytes).sum) y = z at *
  obtain ⟨remained, counted, flagged⟩ := foldl_released_events
    ((List.finRange 256).filter fun i => decide ((ctx s i).state = .closing)) z
  refine ⟨?_, ?_, ?_, fun i hi => ?_, fun set on room i hi => ?_⟩
  · rw [after.remainder noBytes', events, remained, remainder, before.remainder noBytes]
    rfl
  · rw [after.counters _ noBytes', events, counted, counter, before.counters _ noBytes, before.remainder noBytes]
    rfl
  · rw [after.flags _ noReleased', events, flagged, lost.within.flags _ (by decide), before.flags _ noReleased]
  · have state : (ctx s i).state = .closing := by simpa using (List.mem_filter.mp hi).2
    rw [h.freed i ((h.contexts i).1.trans state), Context.freed, (h.contexts i).2]
  · obtain ⟨_, _, told⟩ := h.told set
    have length := told.length
    have length' := lost.length
    have queued := foldl_released_queue ((List.finRange 256).filter fun i => decide ((ctx s i).state = .closing)) (s := z)
      (by rw [lost.within.enabled, before.enabled, on]) (by omega)
    refine after.records _ ?_ rfl
    rw [link, queued, epoch]
    exact List.mem_append_right _ (List.mem_map_of_mem hi)

/-- After an emptying no context is CLOSING and none has grants outstanding. -/
theorem ctx_emptied (s : State) (i : Index) :
    (ctx (emptyTracking s) i).state ≠ .closing ∧ (ctx (emptyTracking s) i).outstanding = 0 := by
  rw [ctx_emptyTracking]
  split
  · exact ⟨nofun, rfl⟩
  · next open_ => exact ⟨open_, rfl⟩

end Sys2Proof.Machine
end


section
/-!
PROOFS. Marker recovery, and a MARK in HOLDING (R24, R104, R121, R155, R157).
-/
namespace Sys2Proof.Machine

open Sys2Proof

/-! ## What a MARK has judged and counted when its effect begins -/

theorem Context.counted_kept (i : Index) (redo : List RedoEntry) (c : Context) :
    (c.counted i redo).state = c.state ∧ (c.counted i redo).attachNo = c.attachNo ∧
      (c.counted i redo).outstanding = c.outstanding := by
  unfold Context.counted
  dsimp only
  split
  · exact ⟨rfl, rfl, rfl⟩
  · split <;> exact ⟨rfl, rfl, rfl⟩

/-- A judgement that does not set the period reports at most EPOCH_FAULT and BUS_STUCK. -/
theorem judged_faults_tells {interval : Nat} {s : State} (count : Option Epoch)
    (set : s.align.watch ≠ .unset ∨ s.align.Faults interval) :
    Tells [.epochFault, .busStuck] [] 2 s (s.judged interval count) := by
  by_cases faults : s.align.Faults interval
  · have judged := judgeWatch_faults (s := setEpoch count s) (interval := interval) faults
    have first : Tells [.epochFault, .busStuck] [] 1 s (judgeWatch interval (setEpoch count s)) := by
      rw [judged]
      have told (w : State) := (setEvent_tells .epochFault (epochField w.align.epoch) .none w).mono
        (ks' := [.epochFault, .busStuck]) (by decide) (List.Subset.refl _) (Nat.le_refl 1)
      exact (told _).after rfl rfl
    exact first.trans ((judgeBus_tells _).mono (by decide) (List.Subset.refl _) (Nat.le_refl 1))
  · exact (judged_tells count faults (set.resolve_right faults)).mono (by decide) (List.Subset.refl _) (by decide)

/-- The state of a MARK that its effect finds. -/
structure State.MarkCounted (s : State) (interval : Nat) (c : State) : Prop where
  engine : c.engine = s.engine
  power : c.power = s.power
  edge : c.edge = s.edge
  tracking : c.tracking = { s.tracking with serial := 0 }
  contexts : ∀ i, (ctx c i).state = (ctx s i).state ∧ (ctx c i).attachNo = (ctx s i).attachNo ∧
    (ctx c i).outstanding = (ctx s i).outstanding
  align : s.align.Marked interval c.align
  opState : c.align.opState = s.align.opState
  reports : Says [.markerSlip, .epochFault, .ulBarred, .busStuck] [] s c
  tells : s.align.watch ≠ .unset ∨ s.align.Faults interval → Tells [.markerSlip, .epochFault, .busStuck] [] 3 s c
  quietly : s.align.watch ≠ .unset → ¬s.align.Faults interval → Tells [.markerSlip, .busStuck] [] 2 s c

theorem markCounted (s : State) (interval : Nat) : s.MarkCounted interval (countContexts (s.markJudged interval)) := by
  obtain ⟨engine, power, edge, -, -, -, -, tracking⟩ := judged_rest (testSlip s) interval (some 0)
  obtain ⟨timing, align⟩ := markJudged_align interval s
  have slipped : (testSlip s).align = s.align := by simp
  have slip := testSlip_tells s
  refine ⟨engine.trans (by simp), power.trans (by simp), edge.trans (by simp), ?_, fun i => ?_, ?_, ?_, ?_, fun set => ?_,
    fun set quiet => ?_⟩
  · exact tracking.trans (by simp)
  · obtain ⟨b, bars⟩ := ctx_judged (testSlip s) interval (some 0) i
    have before : ctx (testSlip s) i = ctx s i := ctx_congr (by simp) i
    obtain ⟨state, attachNo, outstanding⟩ := Context.counted_kept i (s.markJudged interval).tracking.redo
      (ctx (s.markJudged interval) i)
    rw [ctx_countContexts, state, attachNo, outstanding, State.markJudged, bars, before]
    exact ⟨rfl, rfl, rfl⟩
  · show s.align.Marked interval (s.markJudged interval).align
    rw [align]
    exact ⟨rfl, rfl, rfl⟩
  · show (s.markJudged interval).align.opState = _
    rw [align]
  · exact (markJudged_says interval s).before rfl rfl
  · have judged := judged_faults_tells (s := testSlip s) (interval := interval) (some 0) (by rwa [slipped])
    have counted : Tells [.epochFault, .busStuck] [] 0 (s.markJudged interval) (countContexts (s.markJudged interval)) :=
      .of_same rfl rfl
    exact (slip.mono (by decide) (List.Subset.refl _) (Nat.le_refl 1)).trans
      ((judged.trans counted).mono (by decide) (List.Subset.refl _) (Nat.le_refl 2))
  · have judged := judged_tells (s := testSlip s) (interval := interval) (some 0) (by rwa [slipped]) (by rwa [slipped])
    have counted : Tells [.busStuck] [] 0 (s.markJudged interval) (countContexts (s.markJudged interval)) :=
      .of_same rfl rfl
    exact (slip.mono (by decide) (List.Subset.refl _) (Nat.le_refl 1)).trans
      ((judged.trans counted).mono (by decide) (List.Subset.refl _) (Nat.le_refl 1))

/-! ## Marker recovery -/

/-- The edge state that a marker recovery leaves (R125, R129). -/
theorem restateEdge_edge (p : Epoch) (s : State) :
    (restateEdge p s).edge =
      { s.edge with
        counter := 0
        holdDown := (s.edge.holdDown.map fun h => { h with expiry := h.expiry - p - 1 }).filter fun h => h.expiry != 0 } :=
  rfl

/-- In OPERATING within tolerance a MARK does marker recovery. -/
theorem markWorked_recovers {interval : Nat} {s : State} (op : s.align.opState = .operating)
    (quiet : ¬s.align.Faults interval) :
    s.markWorked interval =
      recoverMarker (s.align.epoch.getD 1023) (countContexts (s.markJudged interval)) := by
  have counted := (markCounted s interval).opState.trans op
  have effect : markEffect (s.align.epoch.getD 1023) (countContexts (s.markJudged interval)) =
      recoverMarker (s.align.epoch.getD 1023) (countContexts (s.markJudged interval)) := by
    rw [markEffect, counted]
  rw [State.markWorked, markEntered_quiet fun _ => quiet, effect]
  refine listenPulse_elsewhere ?_
  rw [(recoverMarker_keeps _ _).2.2.1, counted]
  decide

/-- The emptying of the tracking state at a marker recovery. -/
theorem recovery_emptiedAt {interval : Nat} {s c t : State} {p : Epoch} (counted : s.MarkCounted interval c)
    (quiet : ¬s.align.Faults interval) (spared : (recoverMarker p c).Spared t) :
    s.EmptiedAt (emptyCarry (abortRun true c)) t := by
  have same (i : Index) : ctx (emptyCarry (abortRun true c)) i = ctx c i := ctx_congr (by simp [emptyCarry]) i
  have aborted := abortRun_tells true c
  refine ⟨?_, fun i => ?_, ⟨[.markerSlip, .epochFault, .ulBarred, .busStuck] ++ abortKinds, abortCounters, ?_, by decide,
    by decide⟩, fun set => ⟨[.markerSlip, .busStuck] ++ abortKinds, abortCounters, ?_⟩,
    ⟨.attachTimeout :: frameKinds, [], ?_, by decide, List.not_mem_nil⟩,
    fun i closing => ?_, ?_⟩
  · show (abortRun true c).tracking.redo = _
    rw [abortRun_tracking, counted.tracking]
    split <;> rfl
  · rw [same]
    exact ⟨(counted.contexts i).1, (counted.contexts i).2.1⟩
  · exact ((counted.reports.mono (by decide) (List.nil_subset _)).trans
      (aborted.within.mono (by decide) (by decide))).before rfl rfl
  · have carried : Tells ([.markerSlip, .busStuck] ++ abortKinds) abortCounters 0 (abortRun true c)
        (emptyCarry (abortRun true c)) := .of_same rfl rfl
    exact ((((counted.quietly set quiet).mono (by decide) (List.nil_subset _) (Nat.le_refl 2)).trans
      (aborted.mono (by decide) (by decide) (Nat.le_refl 3))).trans carried).mono (List.Subset.refl _)
      (List.Subset.refl _) (by decide)
  · exact spared.reports.after rfl rfl
  · have freed : ctx (recoverMarker p c) i = (ctx (emptyCarry (abortRun true c)) i).freed :=
      (ctx_emptyTracking _ i).trans (if_pos closing)
    rw [← freed]
    exact (spared.contexts i).free (by rw [freed]; rfl)
  · rw [spared.align]
    simp [recoverMarker]

/-- Settles O33: the count and MARKER_SLIP through any order of the work, and the recovery part by part. -/
theorem markBringsRecovery : Obligations.MarkBringsRecovery := by
  intro interval order s idle configured
  have marked := markPulse_marked interval order s
  refine ⟨_, exec_markPulse idle configured, marked.epoch, fun e epoch slip =>
    markPulse_kept interval order s .markerSlip (testSlip_flag epoch slip), ?_, fun op watch regular => ?_⟩
  · rw [marked.watch, marked.period]
  have quiet : ¬s.align.Faults interval := by
    rintro (⟨unset, -⟩ | ⟨-, out⟩)
    · rw [watch] at unset
      cases unset
    · rw [regular] at out
      cases out
  have set : s.align.watch ≠ .unset := by rw [watch]; decide
  have counted := markCounted s interval
  have recovers := markWorked_recovers op quiet
  generalize countContexts (s.markJudged interval) = c at counted recovers
  have opWorked : (s.markWorked interval).align.opState = .operating := by
    rw [recovers, (recoverMarker_keeps _ _).2.2.1, counted.opState, op]
  have spared := markPulse_spared interval order (s := s) (by rw [opWorked]; decide)
  generalize takeTasks ownTasks (takeTasks order (markArrives interval s)) = t at spared marked
  have stays : t.align.opState = .operating := by rw [spared.align, opWorked]
  rw [recovers] at spared
  generalize hp : s.align.epoch.getD 1023 = p at spared
  have emptied := recovery_emptiedAt counted quiet spared
  have missed := abortRun_missed true c
  have told := emptyTracking_says (emptyCarry (abortRun true c))
  have spoken : Says ([.released, .counterHalf] ++ .attachTimeout :: frameKinds) [.bytesLost] (abortRun true c) t := by
    have first : Says ([.released, .counterHalf] ++ .attachTimeout :: frameKinds) [.bytesLost] (abortRun true c)
        (recoverMarker p c) :=
      have wide := told.mono (ks' := [.released, .counterHalf] ++ .attachTimeout :: frameKinds) (by decide)
        (List.Subset.refl _)
      have carried : Says ([.released, .counterHalf] ++ .attachTimeout :: frameKinds) [.bytesLost] (abortRun true c)
          (emptyTracking (emptyCarry (abortRun true c))) := wide.after (s := abortRun true c) rfl rfl
      carried.before (u := recoverMarker p c) rfl rfl
    exact first.trans (spared.reports.mono (by decide) (List.nil_subset _))
  have tracking : t.tracking = (emptyTracking (emptyCarry (abortRun true c))).tracking := spared.tracking
  have contexts (i : Index) : (ctx t i).state ≠ .closing ∧ (ctx t i).outstanding = 0 := by
    obtain ⟨state, none⟩ := ctx_emptied (emptyCarry (abortRun true c)) i
    exact (spared.contexts i).settled state none
  have before : (emptyTracking (emptyCarry (abortRun true c))).edge = s.edge := by simp [counted.edge]
  have edge : t.edge = _ := spared.edge.trans (restateEdge_edge p _)
  rw [before] at edge
  refine ⟨stays, ?_, ?_, ?_, ?_, fun r running on room => ?_, fun q => ?_, ?_, ?_, contexts, emptied.reported, ?_, ?_, ?_,
    ?_, fun q epoch => ?_⟩
  · rw [spared.engine]
    simp [recoverMarker, emptyCarry, counted.engine]
  · rw [spared.power]
    simp [recoverMarker, counted.engine, counted.power]
  · rw [spoken.flags _ (by decide), missed.1, counted.reports.flags _ (by decide), counted.engine, Bool.or_eq_true]
  · rw [spoken.counters _ (by decide), missed.2, counted.reports.counters _ List.not_mem_nil, counted.engine]
  · have length := (counted.quietly set quiet).length
    have notice := abortRun_notice (b := true) (s := c) (by rw [counted.engine, running])
      (by rw [counted.reports.enabled, on]) (by simp only [if_true]; omega)
    rw [counted.align.epoch] at notice
    exact spoken.records _ notice rfl
  · rw [tracking]
    simp [BatchRecord.empty]
  · rw [tracking]
    simp
  · rw [tracking]
    simp
  · rw [edge]
  · rw [edge]
  · rw [edge]
  · rw [edge]
  · rw [epoch, Option.getD_some] at hp
    rw [edge, hp]

/-! ## A MARK in HOLDING -/

/-- The state before the parts of a MARK in HOLDING. -/
theorem markWorked_holding {interval : Nat} {s : State} {p : Epoch} (op : s.align.opState = .holding)
    (epoch : s.align.epoch = some p) :
    s.markWorked interval =
      if (watchAfter s.align interval).1 = .regular ∧ s.link.lost = false then
        leaveHolding (countContexts (s.markJudged interval))
      else restateTracking p (countContexts (s.markJudged interval)) := by
  have counted := markCounted s interval
  have quiet : s.align.opState = .operating → ¬s.align.Faults interval := fun h => by rw [op] at h; cases h
  have stays := markEffect_align p (countContexts (s.markJudged interval))
  have met : exitMet (countContexts (s.markJudged interval)) = true ↔
      (watchAfter s.align interval).1 = .regular ∧ s.link.lost = false := by
    rw [exitMet, counted.align.watch, counted.reports.inbound.2.2]
    simp
  have whole : s.markWorked interval = markEffect p (countContexts (s.markJudged interval)) := by
    rw [State.markWorked, markEntered_quiet quiet, epoch, Option.getD_some]
    refine listenPulse_elsewhere ?_
    rw [stays, counted.opState, op]
    dsimp only
    split <;> decide
  rw [whole, markEffect, counted.opState, op]
  dsimp only
  by_cases exits : exitMet (countContexts (s.markJudged interval)) = true
  · rw [if_pos exits, if_pos (met.mp exits)]
  · rw [if_neg exits, if_neg (met.not.mp exits)]

/-- The emptying of the tracking state at the end of HOLDING. -/
theorem exit_emptiedAt {interval : Nat} {s c t : State} (counted : s.MarkCounted interval c)
    (spared : (leaveHolding c).Spared t) : s.EmptiedAt (emptyCarry c) t := by
  refine ⟨?_, fun i => ?_,
    ⟨[.markerSlip, .epochFault, .ulBarred, .busStuck], [], counted.reports.before rfl rfl, by decide, List.not_mem_nil⟩,
    fun set => ⟨[.markerSlip, .epochFault, .busStuck], [], ?_⟩,
    ⟨.attachTimeout :: frameKinds, [], spared.reports.after rfl rfl, by decide, List.not_mem_nil⟩,
    fun i closing => ?_, ?_⟩
  · show c.tracking.redo = _
    rw [counted.tracking]
  · exact ⟨(counted.contexts i).1, (counted.contexts i).2.1⟩
  · have carried : Tells [.markerSlip, .epochFault, .busStuck] [] 2 c (emptyCarry c) := .of_same rfl rfl
    exact (counted.tells (.inl set)).trans carried
  · have freed : ctx (leaveHolding c) i = (ctx (emptyCarry c) i).freed := (ctx_emptyTracking _ i).trans (if_pos closing)
    rw [← freed]
    exact (spared.contexts i).free (by rw [freed]; rfl)
  · rw [spared.align]
    simp [leaveHolding]

/-- Settles O34, by the two outcomes of the exit test. -/
theorem markInHolding : Obligations.MarkInHolding := by
  intro interval order p s idle op epoch noRun
  have marked := markPulse_marked interval order s
  have counted := markCounted s interval
  have worked := markWorked_holding (interval := interval) op epoch
  generalize countContexts (s.markJudged interval) = c at counted worked
  have cRun : c.engine.run = none := by rw [counted.engine, noRun]
  refine ⟨_, exec_markPulse idle (by rw [op]; decide), marked.epoch, ?_⟩
  by_cases exits : (watchAfter s.align interval).1 = .regular ∧ s.link.lost = false
  · rw [if_pos exits] at worked ⊢
    have opWorked : (s.markWorked interval).align.opState = .operating := by rw [worked]; rfl
    have spared := markPulse_spared interval order (s := s) (by rw [opWorked]; decide)
    generalize takeTasks ownTasks (takeTasks order (markArrives interval s)) = t at spared
    have stays : t.align.opState = .operating := by rw [spared.align, opWorked]
    rw [worked] at spared
    have engine : t.engine = (emptyCarry c).engine := by
      rw [spared.engine]
      simp [leaveHolding]
    have tracking : t.tracking = (emptyTracking (emptyCarry c)).tracking := spared.tracking
    refine ⟨by rw [engine]; exact cRun, stays, ?_, ?_, fun q => ?_, by rw [spared.edge]; rfl, ?_, ?_, fun i => ?_,
      (exit_emptiedAt counted spared).reported⟩
    · rw [tracking]
      simp
    · rw [tracking]
      simp
    · rw [tracking]
      simp [BatchRecord.empty]
    · rw [engine]
      rfl
    · rw [engine]
      rfl
    · obtain ⟨state, none⟩ := ctx_emptied (emptyCarry c) i
      exact (spared.contexts i).settled state none
  · rw [if_neg exits] at worked ⊢
    have opWorked : (s.markWorked interval).align.opState = .holding := by
      rw [worked, (restateTracking_keeps _ _).2.2.2.2.2.2.2.1, counted.opState, op]
    have spared := markPulse_spared interval order (s := s) (by rw [opWorked]; decide)
    generalize takeTasks ownTasks (takeTasks order (markArrives interval s)) = t at spared
    have stays : t.align.opState = .holding := by rw [spared.align, opWorked]
    rw [worked] at spared
    have spoken : Says ([.markerSlip, .epochFault, .ulBarred, .busStuck] ++ .attachTimeout :: frameKinds) [] s t :=
      have first := counted.reports.mono
        (ks' := [.markerSlip, .epochFault, .ulBarred, .busStuck] ++ .attachTimeout :: frameKinds) (by decide)
        (List.Subset.refl _)
      have restated : Says ([.markerSlip, .epochFault, .ulBarred, .busStuck] ++ .attachTimeout :: frameKinds) [] s
          (restateTracking p c) := first.before (u := restateTracking p c) rfl rfl
      restated.trans (spared.reports.mono (by decide) (List.Subset.refl _))
    refine ⟨by rw [spared.engine]; exact cRun, stays, ?_, ?_, ?_, spoken.remainder List.not_mem_nil,
      spoken.counters _ List.not_mem_nil, spoken.flags _ (by decide), fun i settled => ?_⟩
    · rw [spared.tracking, restateTracking, counted.tracking]
      rfl
    · rw [spared.tracking, restateTracking, counted.tracking]
      rfl
    · rw [spared.tracking, restateTracking, counted.tracking]
    · obtain ⟨state, -, outstanding⟩ := counted.contexts i
      exact ((spared.contexts i).outstanding (by rw [← state] at settled; exact settled)).trans outstanding

end Sys2Proof.Machine
end


section
/-!
PROOFS. A pulse out of tolerance: EPOCH_FAULT, and in OPERATING the entry to HOLDING, in any order of the work (R103, R153,
R156).
-/
namespace Sys2Proof.Machine

open Sys2Proof

/-! ## The judgement of a pulse: EPOCH_FAULT -/

/-- Within tolerance a judgement sets at most UL_BARRED and BUS_STUCK. -/
theorem judged_quiet_says {interval : Nat} {s : State} (count : Option Epoch) (quiet : ¬s.align.Faults interval) :
    Says [.ulBarred, .busStuck] [] s (s.judged interval count) := by
  have watched : Says [.ulBarred] [] s (judgeWatch interval (setEpoch count s)) := by
    by_cases unset : s.align.watch = .unset
    · have written : judgeWatch interval (setEpoch count s) =
          if s.align.timing then
            match measuredPeriod interval with
            | some p => setPeriod p (setEpoch count s)
            | none => epochFault (setEpoch count s)
          else
            { setEpoch count s with align := { (setEpoch count s).align with timing := true } } := by
        rw [judgeWatch, show (setEpoch count s).align.watch = .unset from unset]
        rfl
      rw [written]
      split
      · next timing =>
        cases measured : measuredPeriod interval with
        | some p => exact (deriveAllBars_says _).after rfl rfl
        | none => exact absurd (.inl ⟨unset, timing, measured⟩) quiet
      · exact .of_same rfl rfl
    · rw [judgeWatch_regular (s := setEpoch count s) quiet unset]
      exact .of_same rfl rfl
  exact (watched.mono (by decide) (List.Subset.refl _)).trans ((judgeBus_says _).mono (by decide) (List.Subset.refl _))

/-- Out of tolerance EPOCH_FAULT is set, with the new count as subject. -/
theorem judged_faults {interval : Nat} {s : State} (count : Option Epoch) (faults : s.align.Faults interval) :
    (s.judged interval count).events.flag .epochFault = true ∧
      (s.events.enabled .epochFault = true → s.link.queue.length < 24 →
        .notice { event := .epochFault, subject := epochField count, code := .none, epoch := count } ∈
          (s.judged interval count).link.queue) := by
  have judged := judgeWatch_faults (s := setEpoch count s) (interval := interval) faults
  generalize (watchAfter (setEpoch count s).align interval).1 = w at judged
  have bus := judgeBus_says (judgeWatch interval (setEpoch count s))
  rw [State.judged]
  refine ⟨bus.kept _ ?_, fun on room => bus.records _ ?_ rfl⟩
  · rw [judged, epochFault]
    simp
  · have told := setEvent_queue (k := .epochFault) (s := setWatch w (setEpoch count s)) (epochField count) .none on room
    have set : judgeWatch interval (setEpoch count s) =
        setEvent .epochFault (epochField count) .none (setWatch w (setEpoch count s)) := judged
    rw [set, told]
    exact List.mem_append_right _ (List.mem_singleton.mpr rfl)

/-! ## The operating state through the parts -/

/-- With no entry due, the listening test taken or failed, the parts leave Alignment Control. -/
theorem takeTasks_align_kept (l : List PulseTask) {u : State} (entry : u.pulse.entry = false)
    (h : u.pulse.decide = false ∨ u.align.watch ≠ .regular) : (takeTasks l u).align = u.align := by
  refine (List.foldlRecOn (motive := fun t : State => t.align = u.align ∧ t.pulse.entry = false ∧
    (t.pulse.decide = false ∨ u.align.watch ≠ .regular)) l takeTask ⟨rfl, entry, h⟩ fun t ht k _ => ?_).1
  obtain ⟨same, entry, h⟩ := ht
  have off {j : PulseTask} (notDue : t.pulse.due j = false) : (takeTask t k).pulse.due j = false := by
    rw [takeTask_pulse]
    exact Bool.eq_false_iff.mpr fun on => by rw [PulseWork.due_taken on] at notDue; cases notDue
  refine ⟨?_, off (j := .entry) entry, h.imp_left fun decide => off (j := .decide) decide⟩
  by_cases isEntry : k = .entry
  · subst isEntry
    rw [takeTask_notDue (k := .entry) entry, same]
  · by_cases isDecide : k = .decide
    · subst isDecide
      rcases h with notDue | watch
      · rw [takeTask_notDue (k := .decide) notDue, same]
      · show (takeDecide t).align = _
        unfold takeDecide
        split
        · have unmet : listeningMet { t with pulse := { t.pulse with decide := false } } = false :=
            Bool.eq_false_iff.mpr fun met => by
              obtain ⟨-, -, -, regular, -⟩ := (listeningMet_iff _).mp met
              exact watch (same ▸ regular)
          rw [testListening, unmet, Bool.and_false, if_neg Bool.false_ne_true]
          exact same
        · exact same
    · rw [takeTask_align_kept t isEntry isDecide, same]

/-- Out of tolerance the watch is not REGULAR. -/
theorem watchAfter_faults {a : Alignment} {interval : Nat} (faults : a.Faults interval) :
    (watchAfter a interval).1 ≠ .regular := by
  unfold watchAfter
  rcases faults with ⟨watch, timing, measured⟩ | ⟨watch | watch, out⟩
  · simp [watch, timing, measured]
  · simp [watch, out]
  · simp [watch, out]

/-! ## A fault in OPERATING -/

/-- The run in flight before the pulse is missed: PLAN_MISSED is set, the plans-missed counter is up, and its record is
MISSED unless a run for epoch `e + 2` takes its place. -/
structure State.Missed (s : State) (e : Epoch) (r : Run) (u : State) : Prop where
  flag : u.events.flag .planMissed = true
  count : min 65535 (s.events.counter .plansMissed + 1) ≤ u.events.counter .plansMissed
  ring : s.RingPlaced → ringIndex r.target ≠ ringIndex (e + 2) →
    u.tracking.ring.get (ringIndex r.target) = { target := some r.target, status := .missed }

/-- Before the entry to HOLDING that a fault brings, at epoch `e` of the pulse: the run in flight still runs or is missed,
and another run is one for `e + 2`. -/
structure State.FaultBefore (s : State) (e : Epoch) (u : State) : Prop where
  op : u.align.opState = .operating
  epoch : now u = e
  engine : { u.engine with run := none } = { s.engine with run := none }
  count : min 65535 (s.events.counter .plansMissed) ≤ u.events.counter .plansMissed
  flight : ∀ r, s.engine.run = some r → u.engine.run = some r ∨ s.Missed e r u
  target : ∀ r, u.engine.run = some r → s.engine.run = some r ∨ r.target = e + 2
  placed : s.RingPlaced → u.RingPlaced

/-- After that entry. -/
structure State.FaultLeft (s : State) (e : Epoch) (u : State) : Prop where
  op : u.align.opState = .holding
  engine : u.engine = { s.engine with run := none, carrySource := none, carryTiles := [] }
  prev : u.power.pPrev = 0
  edge : u.edge = Edge.reset
  noPlan : ∀ p, OutRecord.plan p ∉ u.link.queue
  missed : ∀ r, s.engine.run = some r → s.Missed e r u
  notSent : s.RingPlaced → ∀ p, (u.tracking.ring.get p).status ≠ .sent

section Fault

variable {ks : List EventKind} {cs : List Counter} {s u v : State} {e : Epoch} {r : Run}

theorem State.Missed.mono (h : s.Missed e r u) (reports : Says ks cs u v)
    (ring : ∀ p, (u.tracking.ring.get p).status ≠ .sent → v.tracking.ring.get p = u.tracking.ring.get p) :
    s.Missed e r v where
  flag := reports.kept _ h.flag
  count := by
    have := reports.grown .plansMissed
    have := h.count
    omega
  ring placed apart := by
    have missed := h.ring placed apart
    rw [ring _ (by rw [missed]; nofun), missed]

/-- An abort misses the run in flight. -/
theorem missed_abortRun (b : Bool) (running : u.engine.run = some r)
    (count : min 65535 (s.events.counter .plansMissed) ≤ u.events.counter .plansMissed) :
    s.Missed e r (abortRun b u) := by
  obtain ⟨flag, counter⟩ := abortRun_missed b u
  refine ⟨by rw [flag, running]; simp, ?_, fun _ _ => ?_⟩
  · rw [counter, running, Option.isSome_some, if_pos rfl]
    omega
  · rw [abortRun_tracking, running]
    simp

/-- The record of an earlier missed run survives an abort. -/
theorem State.Missed.aborted (h : s.Missed e r u) (b : Bool)
    (target : ∀ r', u.engine.run = some r' → s.engine.run = some r' ∨ r'.target = e + 2)
    (flight : s.engine.run = some r) : s.Missed e r (abortRun b u) := by
  have reports := (abortRun_tells b u).within
  refine ⟨reports.kept _ h.flag, ?_, fun placed apart => ?_⟩
  · have := reports.grown .plansMissed
    have := h.count
    omega
  · rw [abortRun_tracking]
    cases running : u.engine.run with
    | none => exact h.ring placed apart
    | some r' =>
      rcases target r' running with same | later
      · rw [flight, Option.some.injEq] at same
        simp [same]
      · rw [← later] at apart
        exact (Table.get_set_ne _ _ apart).trans (h.ring placed (later ▸ apart))

theorem State.FaultBefore.missed (h : s.FaultBefore e u) (b : Bool) (flight : s.engine.run = some r) :
    s.Missed e r (abortRun b u) := by
  rcases h.flight r flight with running | missed
  · exact missed_abortRun b running h.count
  · exact missed.aborted b h.target flight

/-- A part beside the entry and the start leaves the state before the entry as it was. -/
theorem State.FaultBefore.mono (h : s.FaultBefore e u) (reports : Says ks cs u v) (engine : v.engine = u.engine)
    (align : v.align = u.align) (placed : u.RingPlaced → v.RingPlaced)
    (ring : ∀ p, (u.tracking.ring.get p).status ≠ .sent → v.tracking.ring.get p = u.tracking.ring.get p) :
    s.FaultBefore e v where
  op := by rw [align, h.op]
  epoch := by rw [now, align]; exact h.epoch
  engine := by rw [engine, h.engine]
  count := by
    have := reports.grown .plansMissed
    have := h.count
    omega
  flight r running := by
    rw [engine]
    exact (h.flight r running).imp_right fun missed => missed.mono reports ring
  target := by rw [engine]; exact h.target
  placed := placed ∘ h.placed

theorem State.FaultLeft.mono (h : s.FaultLeft e u) (reports : Says ks cs u v) (engine : v.engine = u.engine)
    (power : v.power = u.power) (edge : v.edge = u.edge) (op : v.align.opState = u.align.opState)
    (ring : ∀ p, (u.tracking.ring.get p).status ≠ .sent → v.tracking.ring.get p = u.tracking.ring.get p) :
    s.FaultLeft e v where
  op := op.trans h.op
  engine := engine.trans h.engine
  prev := by rw [power, h.prev]
  edge := edge.trans h.edge
  noPlan p mem := h.noPlan p (reports.plans p mem)
  missed r running := (h.missed r running).mono reports ring
  notSent placed p := by
    have notSent := h.notSent placed p
    rwa [ring p notSent]

/-- Beyond its abort an entry to HOLDING keeps flags and counters. -/
theorem enterHolding_after_abort (s : State) : Says holdKinds holdCounters (abortRun false s) (enterHolding s) := by
  obtain ⟨u, events, link, whole⟩ := enterHolding_stages s
  obtain ⟨m, voided⟩ := foldl_voidBatch_tells (now s) (sentTargets (abortRun false s)) (abortRun false s)
  rw [← voidAllSent_abortRun] at voided
  have first : Says holdKinds holdCounters (abortRun false s) u :=
    (voided.within.mono (by decide) (by decide)).before events link
  have framed := (frameDue_tells (announcement u (holdingTarget s) 0) u).within.mono (ks' := holdKinds)
    (cs' := holdCounters) (by decide) (by decide)
  rw [whole]
  exact (first.trans framed).trans ((cutPlans_says _).mono (List.nil_subset _) (List.nil_subset _))

/-- The entry to HOLDING that a fault brings. -/
theorem State.FaultBefore.enters (h : s.FaultBefore e u) : s.FaultLeft e (enterHolding u) := by
  obtain ⟨engine, power, edge, align⟩ := enterHolding_writes u
  have reports := enterHolding_after_abort u
  have kept : ({ u.engine with run := none, carrySource := none, carryTiles := [] } : Engine) =
      { s.engine with run := none, carrySource := none, carryTiles := [] } :=
    congrArg (fun x : Engine => { x with carrySource := none, carryTiles := [] }) h.engine
  refine ⟨by rw [align], by rw [engine, kept], by rw [power], edge, (enterHolding_link u).1, fun r running => ?_,
    fun placed => (enterHolding_tracking (h.placed placed)).1.not_sent⟩
  have missed := h.missed false running
  refine ⟨reports.kept _ missed.flag, ?_, fun placed apart => ?_⟩
  · have := reports.grown .plansMissed
    have := missed.count
    omega
  · obtain ⟨target, others, -⟩ := (enterHolding_tracking (h.placed placed)).1
    have before := missed.ring placed apart
    by_cases mine : ∃ r', u.engine.run = some r' ∧ ringIndex r'.target = ringIndex r.target
    · obtain ⟨r', running', place⟩ := mine
      rcases h.target r' running' with same | later
      · rw [running, Option.some.injEq] at same
        rw [same]
        exact target r' running'
      · rw [later] at place
        exact absurd place.symm apart
    · have free : ∀ r', u.engine.run = some r' → ringIndex r'.target ≠ ringIndex r.target := fun r' running' place =>
        mine ⟨r', running', place⟩
      have same : (abortRun false u).tracking.ring.get (ringIndex r.target) =
          u.tracking.ring.get (ringIndex r.target) := by
        rw [abortRun_tracking]
        cases running' : u.engine.run with
        | none => rfl
        | some r' => exact Table.get_set_ne _ _ (Ne.symm (free r' running'))
      rw [same] at before
      rw [others _ free, before]
      rfl

/-- The start of a run before the entry. -/
theorem State.FaultBefore.starts (h : s.FaultBefore e u) : s.FaultBefore e (startRun u) := by
  have reports := startRun_says u
  have aligned : (startRun u).align = u.align := by simp
  have placed : s.RingPlaced → (startRun u).RingPlaced := fun ok => Changes.keeps ringPlaced_law.change (startRun_changes u) (h.placed ok)
  have target : now u + 2 = e + 2 := by rw [h.epoch]
  have engine : ∃ run, (startRun u).engine = { u.engine with run := run } ∧ ∀ r, run = some r → r.target = e + 2 := by
    cases mode : u.align.mode with
    | none =>
      have whole : startRun u = abortRun true u := by simp [startRun, h.op, mode]
      exact ⟨none, by rw [whole, abortRun_engine], nofun⟩
    | some m =>
      rw [startRun_begins h.op mode]
      refine ⟨_, (beginRun_effect _ m _).1.trans (by rw [abortRun_engine]), fun r hr => ?_⟩
      rw [← Option.some.inj hr, target]
      rfl
  have tracking : (startRun u).tracking = (abortRun true u).tracking := by
    cases mode : u.align.mode with
    | none => simp [startRun, h.op, mode]
    | some m =>
      rw [startRun_begins h.op mode]
      simp
  have after : Says [.planMissed, .counterHalf, .shortage] abortCounters (abortRun true u) (startRun u) := by
    cases mode : u.align.mode with
    | none =>
      have whole : startRun u = abortRun true u := by simp [startRun, h.op, mode]
      rw [whole]
      exact .refl _
    | some m =>
      rw [startRun_begins h.op mode]
      exact (beginRun_says _ m _).mono (by decide) (List.nil_subset _)
  obtain ⟨run, written, later⟩ := engine
  refine ⟨by rw [aligned, h.op], by rw [now, aligned]; exact h.epoch, by rw [written]; exact h.engine, ?_,
    fun r running => .inr ?_, fun r running => .inr (later r (by rw [written] at running; exact running)), placed⟩
  · have := reports.grown .plansMissed
    have := h.count
    omega
  · exact (h.missed true running).mono after fun p _ => by rw [tracking]

end Fault

/-! ## Through the parts in any order -/

/-- Outside OPERATING no part beside entry, listening test and start writes the edge state. -/
theorem takeTask_edge {k : PulseTask} {s : State} (h : s.aside k) (op : s.align.opState ≠ .operating) :
    (takeTask s k).edge = s.edge := by
  obtain ⟨entry, decide, start⟩ := h
  have off : ¬(s.align.opState == .operating) = true := by simpa using op
  have kept (t : State) (ht : t.align = s.align) : edgeCounts t = false := by
    rw [edgeCounts, ht]
    simp [op]
  have held (t : State) (ht : t.align = s.align) : (takeHoldDown t).edge = t.edge := by
    unfold takeHoldDown
    dsimp only
    split
    · rw [ht, if_neg off]
    · rfl
  cases k with
  | entry => rw [takeTask_notDue (k := .entry) (entry rfl)]
  | decide => rw [takeTask_notDue (k := .decide) (decide rfl)]
  | start => rw [takeTask_notDue (k := .start) (start rfl)]
  | holdDown => exact held s rfl
  | update =>
    show (takeUpdate s).edge = _
    unfold takeUpdate
    dsimp only
    split
    · have same : (takeHoldDown { s with pulse := { s.pulse with update := false } }).align = s.align := by simp
      rw [kept _ same, if_neg Bool.false_ne_true]
      exact held { s with pulse := { s.pulse with update := false } } rfl
    · rfl
  | announce | ability =>
    simp only [takeTask, whenHearing]
    split <;> (try split) <;> simp
  | _ => simp [takeTask]

theorem PulseWork.entry_taken {k : PulseTask} (w : PulseWork) (other : k ≠ .entry) : (w.taken k).entry = w.entry := by
  cases k with
  | entry => exact absurd rfl other
  | update =>
    unfold taken
    dsimp only
    split <;> rfl
  | _ => rfl

theorem takeTask_off {j k : PulseTask} {s : State} (off : s.pulse.due j = false) : (takeTask s k).pulse.due j = false := by
  rw [takeTask_pulse]
  exact Bool.eq_false_iff.mpr fun on => by rw [PulseWork.due_taken on] at off; cases off

/-- A fault in OPERATING, before or after its entry to HOLDING. -/
def State.Faulting (s : State) (e : Epoch) (u : State) : Prop :=
  u.pulse.decide = false ∧
    (u.pulse.entry = true ∧ s.FaultBefore e u ∨ u.pulse.entry = false ∧ s.FaultLeft e u)

theorem State.FaultBefore.taken {s u : State} {e : Epoch} (h : s.FaultBefore e u) (decide : u.pulse.decide = false)
    {k : PulseTask} (other : k ≠ .entry) : s.FaultBefore e (takeTask u k) := by
  by_cases start : k = .start
  · subst start
    show s.FaultBefore e (takeStart u)
    unfold takeStart
    split
    · have opened : s.FaultBefore e { u with pulse := { u.pulse with start := false } } :=
        h.mono (.of_same (ks := []) (cs := []) rfl rfl) rfl rfl id fun _ _ => rfl
      exact opened.starts
    · exact h
  · have beside : u.aside k := ⟨fun same => absurd same other, fun _ => decide, fun same => absurd same start⟩
    obtain ⟨engine, -, align, reports⟩ := takeTask_aside beside
    exact h.mono reports engine align (Changes.keeps ringPlaced_law.change (takeTask_changes u k))
      fun p notSent => takeTask_ring beside notSent

theorem State.FaultLeft.taken {s u : State} {e : Epoch} (h : s.FaultLeft e u) (decide : u.pulse.decide = false)
    (entry : u.pulse.entry = false) (k : PulseTask) : s.FaultLeft e (takeTask u k) := by
  by_cases start : k = .start
  · subst start
    show s.FaultLeft e (takeStart u)
    unfold takeStart
    split
    · have opened : s.FaultLeft e { u with pulse := { u.pulse with start := false } } :=
        h.mono (.of_same (ks := []) (cs := []) rfl rfl) rfl rfl rfl rfl fun _ _ => rfl
      rw [startRun, opened.op]
      exact opened
    · exact h
  · have beside : u.aside k := ⟨fun _ => entry, fun _ => decide, fun same => absurd same start⟩
    obtain ⟨engine, power, align, reports⟩ := takeTask_aside beside
    exact h.mono reports engine power (takeTask_edge beside (by rw [h.op]; nofun)) (by rw [align])
      fun p notSent => takeTask_ring beside notSent

theorem State.FaultBefore.enters_part {s u : State} {e : Epoch} (h : s.FaultBefore e u) (due : u.pulse.entry = true) :
    s.FaultLeft e (takeTask u .entry) := by
  have opened : s.FaultBefore e { u with pulse := { u.pulse with entry := false } } :=
    h.mono (.of_same (ks := []) (cs := []) rfl rfl) rfl rfl id fun _ _ => rfl
  have whole : takeTask u .entry = enterHolding { u with pulse := { u.pulse with entry := false } } := by
    show takeEntry u = _
    rw [takeEntry, due, if_pos rfl, holdIfOperating, opened.op]
    rfl
  rw [whole]
  exact opened.enters

theorem State.Faulting.taken {s u : State} {e : Epoch} (h : s.Faulting e u) (k : PulseTask) :
    s.Faulting e (takeTask u k) := by
  obtain ⟨decide, h⟩ := h
  refine ⟨takeTask_off (j := .decide) decide, ?_⟩
  rcases h with ⟨due, before⟩ | ⟨entry, left⟩
  · by_cases isEntry : k = .entry
    · subst isEntry
      exact .inr ⟨by rw [takeTask_pulse]; rfl, before.enters_part due⟩
    · exact .inl ⟨by rw [takeTask_pulse, PulseWork.entry_taken _ isEntry, due], before.taken decide isEntry⟩
  · exact .inr ⟨takeTask_off (j := .entry) entry, left.taken decide entry k⟩

theorem takeTasks_faulting (l : List PulseTask) {s u : State} {e : Epoch} (h : s.Faulting e u) :
    s.Faulting e (takeTasks l u) :=
  List.foldlRecOn (motive := fun t => s.Faulting e t) l takeTask h fun _ ht k _ => ht.taken k

/-- After the parts inside the pulse command the entry has been taken. -/
theorem State.Faulting.ends {s u : State} {e : Epoch} (h : s.Faulting e u) : s.FaultLeft e (takeTasks ownTasks u) := by
  have taken : (takeTask u .entry).pulse.entry = false := by rw [takeTask_pulse]; rfl
  have rest := takeTasks_faulting [.decide, .start, .counts, .ageing] (h.taken .entry)
  have off : (takeTasks [.decide, .start, .counts, .ageing] (takeTask u .entry)).pulse.entry = false :=
    List.foldlRecOn (motive := fun t : State => t.pulse.entry = false) _ takeTask taken
      fun _ ht _ _ => takeTask_off (j := .entry) ht
  have whole : takeTasks ownTasks u = takeTasks [.decide, .start, .counts, .ageing] (takeTask u .entry) := rfl
  rw [whole]
  rcases rest.2 with ⟨due, -⟩ | ⟨-, left⟩
  · rw [off] at due
    cases due
  · exact left

/-! ## The two pulses -/

/-- The state of an EPOCH pulse out of tolerance in OPERATING when its parts begin. -/
theorem pulseArrives_faulting {interval : Nat} {s : State} (op : s.align.opState = .operating)
    (faults : s.align.Faults interval) :
    s.Faulting ((s.align.epoch.map (· + 1)).getD 0) (pulseArrives interval s) := by
  obtain ⟨timing, align⟩ := pulseArrives_align interval s
  have work := pulseArrives_pulse interval s
  rw [(watchFaults_iff _ _).mpr faults, op] at work
  have engine : (pulseArrives interval s).engine = s.engine := by simp
  have ring : (pulseArrives interval s).tracking.ring = s.tracking.ring := by
    rw [(pulseArrives_rest (.inr faults)).2.1]
  refine ⟨by rw [work]; rfl, .inl ⟨by rw [work]; rfl, by rw [align]; exact op, by rw [now, align], by rw [engine], ?_,
    fun r running => .inl (by rw [engine, running]), fun r running => .inl (by rw [← engine, running]), fun placed => ?_⟩⟩
  · exact (pulseArrives_says interval s).grown _
  · rwa [State.RingPlaced, ring]

/-- A MARK out of tolerance in OPERATING enters HOLDING before its other work. -/
theorem markEntered_faults {interval : Nat} {s : State} (op : s.align.opState = .operating)
    (faults : s.align.Faults interval) :
    s.FaultBefore 0 (s.markJudged interval) ∧ s.markEntered interval = enterHolding (s.markJudged interval) := by
  obtain ⟨timing, align⟩ := markJudged_align interval s
  have counted := markCounted s interval
  have engine : (s.markJudged interval).engine = s.engine := counted.engine
  have tracking : (s.markJudged interval).tracking = { s.tracking with serial := 0 } := counted.tracking
  refine ⟨⟨by rw [align]; exact op, by rw [now, align]; rfl, by rw [engine], counted.reports.grown _,
    fun r running => .inl (by rw [engine, running]), fun r running => .inl (by rw [← engine, running]),
    fun placed => by rw [State.RingPlaced, tracking]; exact placed⟩, ?_⟩
  have operating : (s.markJudged interval).align.opState = .operating := by rw [align]; exact op
  rw [State.markEntered, if_pos ((watchFaults_iff _ _).mpr faults), holdIfOperating, operating]
  rfl

/-- Its other work then restates the deadlines kept. -/
theorem markWorked_faults {interval : Nat} {s : State} (op : s.align.opState = .operating)
    (faults : s.align.Faults interval) :
    s.markWorked interval =
      restateTracking (s.align.epoch.getD 1023) (countContexts (enterHolding (s.markJudged interval))) := by
  obtain ⟨before, entered⟩ := markEntered_faults op faults
  have left := before.enters
  have watch : (countContexts (enterHolding (s.markJudged interval))).align.watch ≠ .regular := by
    have marked := (markEntered_marked interval s).watch
    rw [entered] at marked
    exact fun regular => watchAfter_faults faults (marked ▸ regular)
  have unmet : exitMet (countContexts (enterHolding (s.markJudged interval))) = false := by
    rw [exitMet, Bool.and_eq_false_iff]
    exact .inl (by simpa using watch)
  have holds : (countContexts (enterHolding (s.markJudged interval))).align.opState = .holding := left.op
  have effect : markEffect (s.align.epoch.getD 1023) (countContexts (enterHolding (s.markJudged interval))) =
      restateTracking (s.align.epoch.getD 1023) (countContexts (enterHolding (s.markJudged interval))) := by
    rw [markEffect, holds]
    dsimp only
    rw [unmet, if_neg Bool.false_ne_true]
  rw [State.markWorked, entered, effect]
  exact listenPulse_elsewhere (by rw [(restateTracking_keeps _ _).2.2.2.2.2.2.2.1, holds]; decide)

theorem markPulse_faultLeft {interval : Nat} (order : List PulseTask) {s : State} (op : s.align.opState = .operating)
    (faults : s.align.Faults interval) :
    s.FaultLeft 0 (takeTasks ownTasks (takeTasks order (markArrives interval s))) := by
  have left := (markEntered_faults op faults).1.enters
  have worked : s.FaultLeft 0 (s.markWorked interval) := by
    rw [markWorked_faults op faults]
    exact left.mono (.of_same (ks := []) (cs := []) rfl rfl) rfl rfl rfl rfl fun _ _ => rfl
  have spared := markPulse_spared interval order (s := s) (by rw [worked.op]; decide)
  exact worked.mono spared.reports spared.engine spared.power spared.edge (by rw [spared.align])
    fun _ _ => by rw [spared.tracking]

end Sys2Proof.Machine
end


section
/-!
PROOFS. What a pulse makes of the count and the watch, and what a pulse out of tolerance reports and voids (R103, R153,
R156).
-/
namespace Sys2Proof.Machine

open Sys2Proof

/-! ## The entry to HOLDING from a state like another -/

/-- Two states with the same run in flight, the same tracking state and the same contexts. -/
structure State.Alike (s u : State) : Prop where
  run : u.engine.run = s.engine.run
  ring : u.tracking.ring = s.tracking.ring
  ogt : u.tracking.ogt = s.tracking.ogt
  redo : u.tracking.redo = s.tracking.redo
  contexts : u.contexts = s.contexts

theorem State.Alike.placed {s u : State} (h : s.Alike u) (placed : s.RingPlaced) : u.RingPlaced := by
  rwa [State.RingPlaced, h.ring]

theorem State.Alike.grants {s u : State} (h : s.Alike u) : u.voidedGrants = s.voidedGrants := by
  simp only [State.voidedGrants, h.ogt]
  refine List.filter_congr fun g _ => ?_
  simp only [State.voidedAtEntry, h.run, h.ring]

/-- The entry voids what it would void of the other state. -/
theorem State.Alike.voided {s u : State} (h : s.Alike u) (placed : s.RingPlaced) :
    s.TrackingVoided (now u) (enterHolding u).tracking ∧
      (s.FiguresBounded → ∀ i, ctx (enterHolding u) i = (ctx s i).afterVoid s.voidedGrants i) := by
  obtain ⟨tracking, figures⟩ := enterHolding_tracking (h.placed placed)
  refine ⟨?_, fun bounded i => ?_⟩
  · simpa only [State.TrackingVoided, State.RedoReturned, h.grants, h.run, h.ring, h.ogt, h.redo, State.voidedAtEntry,
      ctx_congr h.contexts] using tracking
  · rw [figures (by simpa only [State.FiguresBounded, ctx_congr h.contexts] using bounded), h.grants, ctx_congr h.contexts]

/-- A pulse's work with the entry taken out. -/
def State.entryTaken (u : State) : State := { u with pulse := { u.pulse with entry := false } }

/-- The parts inside an EPOCH pulse that finds the entry to HOLDING due: the entry, then the counts, with no start. -/
theorem takeTasks_own_enters {u : State} (op : u.align.opState = .operating) (entry : u.pulse.entry = true)
    (decide : u.pulse.decide = false) (counts : u.pulse.counts = true) :
    let h := enterHolding u.entryTaken
    let t := takeTasks ownTasks u
    t.events = h.events ∧ t.link = h.link ∧ t.tracking = h.tracking ∧ t.align = h.align ∧ t.bus = h.bus ∧
      ∀ i, ctx t i = (ctx h i).counted i h.tracking.redo := by
  intro h t
  have entered : takeEntry u = h := by
    rw [takeEntry, entry, if_pos rfl, holdIfOperating]
    exact if_pos (by simpa using op)
  have pulse : h.pulse = { u.pulse with entry := false } := by
    have := takeTask_pulse .entry u
    simp only [takeTask, entered] at this
    exact this
  have holds : h.align.opState = .holding := by
    have := (enterHolding_writes u.entryTaken).2.2.2
    rw [this]
  have decided : takeDecide h = h := takeTask_notDue (k := .decide) (by rw [pulse]; exact decide)
  have started : takeStart h = { h with pulse := { h.pulse with start := false } } := by
    unfold takeStart
    split
    · rw [startRun, holds]
      rfl
    · next off =>
      have : h.pulse.start = false := by simpa using off
      rw [← this]
  have whole : t = takeAgeing (takeCounts { h with pulse := { h.pulse with start := false } }) := by
    rw [← started]
    show takeTasks ownTasks u = _
    rw [takeTasks_own, entered, decided]
  have due : ({ h with pulse := { h.pulse with start := false } } : State).pulse.counts = true := by
    show h.pulse.counts = true
    rw [pulse]
    exact counts
  generalize hv : ({ h with pulse := { h.pulse with start := false } } : State) = v at whole due
  have same : v.events = h.events ∧ v.link = h.link ∧ v.tracking = h.tracking ∧ v.align = h.align ∧ v.bus = h.bus ∧
      v.contexts = h.contexts := by
    rw [← hv]
    exact ⟨rfl, rfl, rfl, rfl, rfl, rfl⟩
  obtain ⟨events, link, tracking, align, bus, contexts⟩ := same
  rw [whole]
  refine ⟨by simp [events], by simp [link], by simp [tracking], by simp [align], by simp [bus], fun i => ?_⟩
  rw [ctx_congr (s := takeCounts v) (by simp), ctx_takeCounts, due, if_pos rfl, ctx_congr contexts, tracking]

/-! ## An EPOCH pulse out of tolerance -/

section Epoch

variable {interval : Nat} {s : State}

/-- What the parts of such a pulse find. -/
theorem pulseArrives_due (op : s.align.opState = .operating) (faults : s.align.Faults interval) :
    (pulseArrives interval s).align.opState = .operating ∧ (pulseArrives interval s).pulse.entry = true ∧
      (pulseArrives interval s).pulse.decide = false ∧ (pulseArrives interval s).pulse.counts = true ∧
      (pulseArrives interval s).pulse.start = true := by
  obtain ⟨timing, align⟩ := pulseArrives_align interval s
  have work := pulseArrives_pulse interval s
  rw [(watchFaults_iff _ _).mpr faults, op] at work
  rw [work, align]
  exact ⟨op, rfl, rfl, rfl, rfl⟩

theorem pulseArrives_alike (faults : s.align.Faults interval) : s.Alike (pulseArrives interval s).entryTaken := by
  obtain ⟨contexts, tracking, -⟩ := pulseArrives_rest (s := s) (.inr faults)
  have engine : (pulseArrives interval s).engine = s.engine := by simp
  have same : (pulseArrives interval s).entryTaken.tracking = { s.tracking with serial := 0 } := tracking
  exact ⟨congrArg Engine.run engine, by rw [same], by rw [same], by rw [same], contexts⟩

theorem pulseArrives_fault_tells (op : s.align.opState = .operating) (faults : s.align.Faults interval) :
    Tells [.epochFault, .busStuck] [] 3 s (pulseArrives interval s).entryTaken := by
  have told := pulseArrives_tells (judged_faults_tells _ (.inr faults)) (by rw [op]; decide)
  have opened : Tells [.epochFault, .busStuck] [] 1 (pulseArrives interval s) (pulseArrives interval s).entryTaken :=
    .of_same rfl rfl
  exact told.trans opened

/-- With the entry taken first, such a pulse reports and voids as a loss of pulses does, at the new count. -/
theorem pulse_enters (op : s.align.opState = .operating) (faults : s.align.Faults interval) (placed : s.RingPlaced) :
    let t := takeTasks ownTasks (pulseArrives interval s)
    s.EntryReported t ∧ s.TrackingVoided ((s.align.epoch.map (· + 1)).getD 0) t.tracking ∧
      (s.FiguresBounded → ∀ i, ctx t i = ((ctx s i).afterVoid s.voidedGrants i).counted i t.tracking.redo) := by
  intro t
  obtain ⟨operating, entry, decide, counts, -⟩ := pulseArrives_due op faults
  obtain ⟨events, link, tracking, align, -, contexts⟩ := takeTasks_own_enters operating entry decide counts
  have alike := pulseArrives_alike faults
  obtain ⟨voided, figures⟩ := alike.voided placed
  have reported := enterHolding_reported (alike.placed placed)
  have at_n : now (pulseArrives interval s).entryTaken = (s.align.epoch.map (· + 1)).getD 0 := by
    obtain ⟨timing, aligned⟩ := pulseArrives_align interval s
    show (pulseArrives interval s).align.epoch.getD 0 = _
    rw [aligned]
  rw [at_n] at voided
  refine ⟨reported.reported (pulseArrives_fault_tells op faults) (by decide) alike.run alike.ring events
    (congrArg LinkPort.queue link) ?_, ?_, fun bounded i => ?_⟩
  · rw [align, (enterHolding_writes _).2.2.2]
  · rw [tracking]
    exact voided
  · rw [contexts, tracking, figures bounded]

/-- Such a pulse with the run started first: the run is one for the epoch two on. -/
theorem pulse_starts (op : s.align.opState = .operating) (faults : s.align.Faults interval)
    (mode : s.align.mode.isSome = true) :
    let v := takeTask (pulseArrives interval s) .start
    v.align = (pulseArrives interval s).align ∧
      (v.pulse.entry = true ∧ v.pulse.decide = false ∧ v.pulse.counts = true) ∧
      (∃ r, v.engine.run = some r ∧ r.target = (s.align.epoch.map (· + 1)).getD 0 + 2) ∧
      v.events.counter .plansMissed =
        if s.engine.run.isSome then min 65535 (s.events.counter .plansMissed + 1)
        else s.events.counter .plansMissed := by
  intro v
  obtain ⟨operating, entry, decide, counts, start⟩ := pulseArrives_due op faults
  obtain ⟨m, mode⟩ := Option.isSome_iff_exists.mp mode
  obtain ⟨timing, aligned⟩ := pulseArrives_align interval s
  have pulse : v.pulse = (pulseArrives interval s).pulse.taken .start := takeTask_pulse .start _
  have align : v.align = (pulseArrives interval s).align := takeTask_align_kept (k := .start) _ nofun nofun
  generalize hx : ({ pulseArrives interval s with
    pulse := { (pulseArrives interval s).pulse with start := false } } : State) = x
  have xAlign : x.align = (pulseArrives interval s).align := by rw [← hx]
  have xEngine : x.engine = s.engine := by
    rw [← hx]
    simp
  have arrived : x.events.counter .plansMissed = s.events.counter .plansMissed := by
    rw [← hx]
    exact (pulseArrives_says interval s).counters _ (by decide)
  have begun : v = beginRun (now x + 2) m (abortRun true x) := by
    show takeStart (pulseArrives interval s) = _
    rw [takeStart, start, if_pos rfl, hx,
      startRun_begins (m := m) (by rw [xAlign, operating]) (by rw [xAlign, aligned, mode])]
  refine ⟨align, by rw [pulse]; exact ⟨entry, decide, counts⟩, ⟨(abortRun true x).newRun (now x + 2) m, ?_, ?_⟩, ?_⟩
  · rw [begun, (beginRun_effect _ _ _).1]
  · show now x + 2 = _
    rw [now, xAlign, aligned]
  · rw [begun, (beginRun_says _ _ _).counters _ List.not_mem_nil, (abortRun_missed true x).2, xEngine, arrived]

/-- That run is missed too. -/
theorem pulse_starts_enters (op : s.align.opState = .operating) (faults : s.align.Faults interval)
    (placed : s.RingPlaced) (mode : s.align.mode.isSome = true) :
    let n := (s.align.epoch.map (· + 1)).getD 0
    let t := takeTasks ownTasks (takeTasks [.start] (pulseArrives interval s))
    t.tracking.ring.get (ringIndex (n + 2)) = { target := some (n + 2), status := .missed } ∧
      t.events.flag .planMissed = true ∧
      t.events.counter .plansMissed =
        min 65535 (s.events.counter .plansMissed + if s.engine.run.isSome then 2 else 1) := by
  intro n t
  obtain ⟨align, ⟨entry, decide, counts⟩, ⟨r, run, target⟩, count⟩ := pulse_starts op faults mode
  have operating := (pulseArrives_due op faults).1
  have vPlaced : (takeTask (pulseArrives interval s) .start).RingPlaced :=
    Changes.keeps ringPlaced_law.change (takeTask_changes _ .start) ((pulseArrives_alike faults).placed placed)
  have whole : t = takeTasks ownTasks (takeTask (pulseArrives interval s) .start) := rfl
  generalize takeTask (pulseArrives interval s) .start = v at *
  obtain ⟨events, -, tracking, -, -, -⟩ := takeTasks_own_enters (by rw [align, operating]) entry decide counts
  have entered : v.entryTaken.RingPlaced := vPlaced
  have entryRun : v.entryTaken.engine.run = some r := run
  have entryCount : v.entryTaken.events.counter .plansMissed = _ := count
  have reported := enterHolding_reported entered
  have missed := (enterHolding_tracking entered).1.1 r entryRun
  rw [target] at missed
  refine ⟨by rw [whole, tracking, missed], ?_, ?_⟩
  · rw [whole, events, reported.missed, entryRun]
    exact .inr rfl
  · rw [whole, events, reported.missedCount, entryRun, entryCount, Option.isSome_some, if_pos rfl]
    split <;> omega

end Epoch

/-! ## A MARK out of tolerance -/

section Mark

variable {interval : Nat} {s : State}

theorem markJudged_alike (faults : s.align.Faults interval) : s.Alike (s.markJudged interval) := by
  have counted := markCounted s interval
  have engine : (s.markJudged interval).engine = s.engine := counted.engine
  have tracking : (s.markJudged interval).tracking = { s.tracking with serial := 0 } := counted.tracking
  have contexts := judged_contexts (s := testSlip s) (interval := interval) (some 0) (.inr (by simpa using faults))
  exact ⟨by rw [engine], by rw [tracking], by rw [tracking], by rw [tracking], contexts.trans (by simp)⟩

/-- With no part taken earlier only the ageing is left after a MARK outside LISTENING. -/
theorem markPulse_ages (op : (s.markWorked interval).align.opState ≠ .listening) :
    takeTasks ownTasks (markArrives interval s) = takeAgeing (markArrives interval s) := by
  have off : (s.markWorked interval).align.opState = .listening ↔ False := iff_false_intro op
  have decided : (markArrives interval s).pulse.decide = false := by
    rw [markArrives_eq]
    show ((s.markWorked interval).align.opState == .listening) = false
    simp [off]
  have notDue : (markArrives interval s).pulse.entry = false ∧ (markArrives interval s).pulse.start = false ∧
      (markArrives interval s).pulse.counts = false := by
    rw [markArrives_eq]
    exact ⟨rfl, rfl, rfl⟩
  obtain ⟨entry, start, counts⟩ := notDue
  rw [takeTasks_own_noEntry entry, takeDecide, decided, if_neg Bool.false_ne_true, takeStart, start,
    if_neg Bool.false_ne_true, takeCounts, counts, if_neg Bool.false_ne_true]

/-- A MARK out of tolerance in OPERATING reports and voids as a loss of pulses does, at count 0; then the contexts are
counted and the deadlines kept are restated. -/
theorem mark_enters (op : s.align.opState = .operating) (faults : s.align.Faults interval) (placed : s.RingPlaced) :
    let t := takeTasks ownTasks (markArrives interval s)
    let k := (enterHolding (s.markJudged interval)).tracking
    let p := s.align.epoch.getD 1023
    s.EntryReported t ∧ s.TrackingVoided 0 k ∧ t.tracking.ring = k.ring ∧
      (s.FiguresBounded → ∀ i, ctx t i = ((ctx s i).afterVoid s.voidedGrants i).counted i k.redo) ∧
      t.tracking.ogt = k.ogt.map (fun g => { g with feedbackDeadline := g.feedbackDeadline - p - 1 }) ∧
      t.tracking.redo = k.redo.map fun e =>
        { e with deadline := e.deadline - p - 1, order := { e.order with epoch := e.order.epoch - p - 1 } } := by
  intro t k p
  have worked := markWorked_faults op faults
  have holds : (s.markWorked interval).align.opState ≠ .listening := by
    have left : (enterHolding (s.markJudged interval)).align.opState = .holding :=
      (markEntered_faults op faults).1.enters.op
    rw [worked]
    show (enterHolding (s.markJudged interval)).align.opState ≠ .listening
    rw [left]
    decide
  have ages : t = takeAgeing (markArrives interval s) := markPulse_ages holds
  have counted := markCounted s interval
  have judgedEpoch : (s.markJudged interval).align.epoch = some 0 := counted.align.epoch
  have alike := markJudged_alike faults
  have reported := enterHolding_reported (alike.placed placed)
  obtain ⟨voided, figures⟩ := alike.voided placed
  have at_0 : now (s.markJudged interval) = 0 := by rw [now, judgedEpoch]; rfl
  rw [at_0] at voided
  have back : Tells [.markerSlip, .epochFault, .busStuck] [] 0 (countContexts (s.markJudged interval))
      (s.markJudged interval) := .of_same rfl rfl
  have told := (counted.tells (.inr faults)).trans back
  have writes := (enterHolding_writes (s.markJudged interval)).2.2.2
  generalize hh : enterHolding (s.markJudged interval) = h at *
  have hk : k = h.tracking := congrArg State.tracking hh
  clear_value k
  subst hk
  have arrived : (markArrives interval s).events = h.events ∧ (markArrives interval s).link = h.link ∧
      (markArrives interval s).align = h.align ∧
      (markArrives interval s).tracking = (restateTracking p (countContexts h)).tracking ∧
      ∀ i, ctx (markArrives interval s) i = (ctx h i).counted i h.tracking.redo := by
    rw [markArrives_eq, worked]
    exact ⟨rfl, rfl, rfl, rfl, fun i => ctx_countContexts h i⟩
  obtain ⟨events, link, align, tracking, contexts⟩ := arrived
  have tTracking : t.tracking = (restateTracking p (countContexts h)).tracking := by rw [ages, ← tracking]; simp
  refine ⟨reported.reported told (by decide) alike.run alike.ring ?_ ?_ ?_, voided, ?_, fun bounded i => ?_, ?_, ?_⟩
  · rw [ages, ← events]
    simp
  · rw [ages, ← link]
    simp
  · rw [ages, show (takeAgeing (markArrives interval s)).align = h.align by rw [← align]; simp, writes]
  · rw [tTracking]
    rfl
  · rw [ages, ctx_congr (s := markArrives interval s) (by simp), contexts, figures bounded]
  · rw [tTracking]
    rfl
  · rw [tTracking]
    rfl

end Mark

/-! ## Reports and operating state of the two pulses -/

/-- From the judgement of a MARK to the parts. -/
theorem markArrives_after (interval : Nat) (s : State) :
    Says (holdKinds ++ markKinds) (holdCounters ++ markCounters) (s.markJudged interval) (markArrives interval s) := by
  have entered : Says (holdKinds ++ markKinds) (holdCounters ++ markCounters) (s.markJudged interval)
      (s.markEntered interval) := by
    unfold State.markEntered
    split
    · exact (holdIfOperating_says _).mono (by decide) (by decide)
    · exact .refl _
  have worked := (markWorked_after interval s).mono (ks' := holdKinds ++ markKinds) (cs' := holdCounters ++ markCounters)
    (by decide) (by decide)
  rw [markArrives_eq]
  exact (entered.trans worked).before rfl rfl

theorem markArrives_opState {interval : Nat} {s : State} (quiet : s.align.opState = .operating → ¬s.align.Faults interval)
    (stays : s.align.opState = .operating ∨ s.align.Faults interval) :
    (markArrives interval s).align.opState = s.align.opState := by
  have counted := markCounted s interval
  have notMet : ¬((countContexts (s.markJudged interval)).align.opState = .holding ∧
      exitMet (countContexts (s.markJudged interval)) = true) := by
    rintro ⟨holding, met⟩
    rcases stays with op | faults
    · rw [counted.opState, op] at holding
      cases holding
    · rw [exitMet, counted.align.watch, Bool.and_eq_true, beq_iff_eq] at met
      exact watchAfter_faults faults met.1
  have effect := markEffect_align (s.align.epoch.getD 1023) (countContexts (s.markJudged interval))
  rw [if_neg notMet] at effect
  rw [markArrives_eq]
  show (s.markWorked interval).align.opState = _
  rw [State.markWorked, markEntered_quiet quiet, listenPulse_align, effect]
  split <;> exact counted.opState

/-- The parts of a MARK that brings no entry leave the operating state where the listening test is not taken or fails. -/
theorem markPulse_opState {interval : Nat} (order : List PulseTask) {s : State}
    (quiet : s.align.opState = .operating → ¬s.align.Faults interval)
    (stays : s.align.opState = .operating ∨ s.align.Faults interval) :
    (takeTasks ownTasks (takeTasks order (markArrives interval s))).align.opState = s.align.opState := by
  have arrived := markArrives_opState quiet stays
  have test : (markArrives interval s).pulse.decide = false ∨ (markArrives interval s).align.watch ≠ .regular := by
    refine stays.imp (fun op => ?_) fun faults => ?_
    · have opWorked : (s.markWorked interval).align.opState = .operating := by
        rw [op, markArrives_eq] at arrived
        exact arrived
      rw [markArrives_eq, opWorked]
      rfl
    · rw [(markArrives_marked interval s).watch]
      exact watchAfter_faults faults
  rw [← takeTasks_append, takeTasks_align_kept _ (markArrives_arrived quiet).entry test, arrived]

theorem epochPulse_opState {interval : Nat} (order : List PulseTask) {s : State}
    (quiet : s.align.opState = .operating → ¬s.align.Faults interval)
    (stays : s.align.opState = .operating ∨ s.align.Faults interval) :
    (takeTasks ownTasks (takeTasks order (pulseArrives interval s))).align.opState = s.align.opState := by
  obtain ⟨timing, align⟩ := pulseArrives_align interval s
  have test : (pulseArrives interval s).pulse.decide = false ∨ (pulseArrives interval s).align.watch ≠ .regular := by
    refine stays.imp (fun op => ?_) fun faults => ?_
    · rw [pulseArrives_pulse, op]
      rfl
    · rw [align]
      exact watchAfter_faults faults
  rw [← takeTasks_append, takeTasks_align_kept _ (pulseArrives_arrived quiet).entry test, align]

/-! ## The statement -/

/-- What a pulse out of tolerance in OPERATING leaves, in any order of its work, in the statement's terms. -/
theorem State.FaultLeft.stated {s t : State} {e : Epoch} (left : s.FaultLeft e t) :
    t.align.opState = .holding ∧
      t.engine = { s.engine with run := none, carrySource := none, carryTiles := [] } ∧ t.power.pPrev = 0 ∧
      t.edge = { ownSet := 0, holdDown := [], counter := 0, demand := 0, subBands := 0 } ∧
      (∀ p, OutRecord.plan p ∉ t.link.queue) ∧
      (∀ r, s.engine.run = some r →
        t.events.flag .planMissed = true ∧
          min 65535 (s.events.counter .plansMissed + 1) ≤ t.events.counter .plansMissed) :=
  ⟨left.op, left.engine, left.prev, left.edge, left.noPlan,
    fun r running => ⟨(left.missed r running).flag, (left.missed r running).count⟩⟩

/-- EPOCH_FAULT through what a pulse does after its judgement. -/
theorem fault_stated {ks : List EventKind} {cs : List Counter} {interval : Nat} {s a t : State} (count : Option Epoch)
    (slip : Tells [.markerSlip] [] 1 s a) (align : a.align = s.align)
    (after : Says ks cs (a.judged interval count) t) (other : .epochFault ∉ ks) :
    (¬s.align.Faults interval → t.events.flag .epochFault = s.events.flag .epochFault) ∧
      (s.align.Faults interval → t.events.flag .epochFault = true ∧
        (s.events.enabled .epochFault = true → s.link.queue.length ≤ 22 →
          .notice { event := .epochFault, subject := epochField count, code := .none, epoch := count } ∈
            t.link.queue)) := by
  have slipped := slip.within.flags .epochFault (by decide)
  have length := slip.length
  refine ⟨fun quiet => ?_, fun faults => ?_⟩
  · have judged := judged_quiet_says (s := a) (interval := interval) count (by rwa [align])
    rw [after.flags _ other, judged.flags _ (by decide), slipped]
  · obtain ⟨flag, notice⟩ := judged_faults (s := a) (interval := interval) count (by rwa [align])
    exact ⟨after.kept _ flag, fun on room =>
      after.records _ (notice (by rwa [slip.within.enabled]) (by omega)) rfl⟩

/-- Settles O29: the judgement, then the parts in any order, before and after the entry that a fault brings. -/
theorem epochPulseAdvancesAndJudges : Obligations.EpochPulseAdvancesAndJudges := by
  intro interval order s idle
  refine ⟨fun op => ?_, fun op => ?_, fun op c hc => ?_⟩
  · have epoch : exec (.epochPulse interval order) s =
        .next (if (finishPulse s).align.opState = .unconfigured then finishPulse s else
          takeTasks (order ++ ownTasks) (pulseArrives interval (finishPulse s))) := rfl
    have mark : exec (.markPulse interval order) s =
        .next (if (finishPulse s).align.opState = .unconfigured then finishPulse s else
          takeTasks (order ++ ownTasks) (markArrives interval (finishPulse s))) := rfl
    rw [epoch, mark, finishPulse_idle idle, if_pos op, if_pos op]
    exact ⟨rfl, rfl⟩
  · obtain ⟨timing, align⟩ := pulseArrives_align interval s
    have moves := takeTasks_moves (order ++ ownTasks) (pulseArrives interval s)
    have spoken := (pulseArrives_says interval s).inbound
    have later := (takeTasks_worked (order ++ ownTasks) (pulseArrives interval s)).inbound
    rw [takeTasks_append] at moves later
    obtain ⟨o, m, moved⟩ := moves
    refine ⟨_, exec_epochPulse idle op, ?_, ?_, ?_, ?_, later.1.trans spoken.1, later.2.1.trans spoken.2.1,
      later.2.2.trans spoken.2.2, by simp, by simp⟩ <;> rw [moved, align]
  · intro count n
    rcases hc with rfl | rfl
    · have isCount : count = s.align.epoch.map (· + 1) := if_neg nofun
      have isN : n = (s.align.epoch.map (· + 1)).getD 0 := congrArg (Option.getD · 0) isCount
      clear_value n count
      subst isCount isN
      have whole := takeTasks_worked (order ++ ownTasks) (pulseArrives interval s)
      rw [takeTasks_append] at whole
      have after := ((pulseArrives_after interval s).mono (ks' := workKinds) (cs' := holdCounters) (by decide)
        (by decide)).trans whole
      obtain ⟨quietly, faultily⟩ := fault_stated (s := s) (a := s) (s.align.epoch.map (· + 1)) (.refl s) rfl after (by decide)
      refine ⟨_, exec_epochPulse idle op, fun quiet => ⟨quietly quiet, fun operating => ?_⟩, fun faults =>
        ⟨(faultily faults).1, (faultily faults).2, fun other => ?_, fun operating => ?_⟩⟩
      · rw [epochPulse_opState order (fun _ => quiet) (.inl operating), operating]
      · exact epochPulse_opState order (fun operating => absurd operating other) (.inr faults)
      · have left := (takeTasks_faulting order (pulseArrives_faulting operating faults)).ends
        obtain ⟨opState, engine, prev, edge, noPlan, missed⟩ := left.stated
        refine ⟨opState, engine, prev, edge, noPlan, missed, fun placed => ⟨left.notSent placed, fun r running =>
          (left.missed r running).ring placed, fun first => ?_, fun first _ mode => ?_⟩⟩
        · subst first
          obtain ⟨reported, voided, contexts⟩ := pulse_enters operating faults placed
          exact ⟨reported, _, voided, rfl, contexts, fun _ => ⟨rfl, rfl⟩, nofun⟩
        · subst first
          exact pulse_starts_enters operating faults placed mode
    · have isCount : count = some 0 := if_pos rfl
      have isN : n = 0 := congrArg (Option.getD · 0) isCount
      clear_value n count
      subst isCount isN
      have whole := takeTasks_worked (order ++ ownTasks) (markArrives interval s)
      rw [takeTasks_append] at whole
      have after := ((markArrives_after interval s).mono (ks' := holdKinds ++ markKinds ++ workKinds)
        (cs' := holdCounters ++ markCounters) (by decide) (by decide)).trans (whole.mono (by decide) (by decide))
      obtain ⟨quietly, faultily⟩ := fault_stated (s := s) (a := testSlip s) (some 0) (testSlip_tells s) (by simp) after
        (by decide)
      refine ⟨_, exec_markPulse idle op, fun quiet => ⟨quietly quiet, fun operating => ?_⟩, fun faults =>
        ⟨(faultily faults).1, (faultily faults).2, fun other => ?_, fun operating => ?_⟩⟩
      · rw [markPulse_opState order (fun _ => quiet) (.inl operating), operating]
      · exact markPulse_opState order (fun operating => absurd operating other) (.inr faults)
      · have left := markPulse_faultLeft order operating faults
        obtain ⟨opState, engine, prev, edge, noPlan, missed⟩ := left.stated
        refine ⟨opState, engine, prev, edge, noPlan, missed, fun placed => ⟨left.notSent placed, fun r running =>
          (left.missed r running).ring placed, fun first => ?_, fun _ => nofun⟩⟩
        subst first
        obtain ⟨reported, voided, ring, contexts, ogt, redo⟩ := mark_enters operating faults placed
        exact ⟨reported, _, voided, ring, contexts, nofun, fun _ => ⟨ogt, redo⟩⟩

end Sys2Proof.Machine
end


section
/-!
PROOFS. Which frame becomes due, and what it carries (R116 to R118, R133, R134).
-/
namespace Sys2Proof.Machine

open Sys2Proof

/-! ## A frame becomes due -/

theorem frameDue_latest {f : BusFrame} {s : State} (cut : s.bus.cutOff = false) :
    (frameDue f s).bus.latest = some f := by
  unfold frameDue
  rw [cut, if_neg Bool.false_ne_true]
  split <;> rfl

theorem frameDue_cutOff (f : BusFrame) (s : State) : (frameDue f s).bus.cutOff = s.bus.cutOff := by
  unfold frameDue
  split
  · simp
  · split <;> rfl

/-- An abort by a pulse announces the aborted target with claim 0 (R116). -/
theorem abortRun_latest {s : State} {r : Run} (run : s.engine.run = some r) (cut : s.bus.cutOff = false) :
    (abortRun true s).bus.latest =
      some (.announce s.align.station s.align.opState r.target 0 s.edge.ownSet s.edge.demand s.align.mode) := by
  have framed : ((abortRun true s).bus).latest =
      (frameDue (announcement (setPrev 0 (setBatch r.target .missed (discardRun s))) r.target 0)
        (setPrev 0 (setBatch r.target .missed (discardRun s)))).bus.latest := by
    simp [abortRun, run, abortTarget]
  rw [framed, frameDue_latest (by simpa [setPrev, discardRun] using cut)]
  simp [announcement, setPrev, discardRun]

theorem abortRun_false_bus (s : State) : (abortRun false s).bus = s.bus := by
  unfold abortRun
  split
  · simp [abortTarget, setPrev, discardRun]
  · rfl

theorem abortRun_cutOff (b : Bool) (s : State) : (abortRun b s).bus.cutOff = s.bus.cutOff := by
  unfold abortRun
  split
  · unfold abortTarget
    simp only [advance_keeps, setEvent_keeps]
    split
    · exact frameDue_cutOff _ _
    · rfl
  · rfl

/-- The entry to HOLDING announces the aborted target, or the epoch two on, with claim 0 and an empty set (R118). -/
theorem enterHolding_latest {s : State} (cut : s.bus.cutOff = false) :
    (enterHolding s).bus.latest =
      some (.announce s.align.station .holding (holdingTarget s) 0 0 0 s.align.mode) := by
  have bus : (voidAllSent (abortRun false s)).bus = s.bus := by simp [abortRun_false_bus]
  have align : (voidAllSent (abortRun false s)).align = s.align := by simp
  unfold enterHolding
  generalize voidAllSent (abortRun false s) = v at bus align
  show (frameDue _ _).bus.latest = _
  rw [frameDue_latest (by rw [← cut, ← bus]; rfl), ← align]
  rfl

/-- A run that starts in OPERATING makes no frame due but that of its abort. -/
theorem startRun_bus {s : State} (op : s.align.opState = .operating) : (startRun s).bus = (abortRun true s).bus := by
  unfold startRun
  rw [op]
  simp only [beq_self_eq_true, if_true]
  split <;> simp

theorem startRun_cutOff (s : State) : (startRun s).bus.cutOff = s.bus.cutOff := by
  by_cases op : s.align.opState = .operating
  · rw [startRun_bus op, abortRun_cutOff]
  · simp [startRun, op]

/-- A pulse in LISTENING makes an ABILITY due. -/
theorem listenPulse_latest {s : State} (op : s.align.opState = .listening) (cut : s.bus.cutOff = false) :
    (listenPulse s).bus.latest =
      some (.ability s.align.station .listening { counts := s.config.counts, edge := s.config.edgeCapable }) := by
  unfold listenPulse
  simp only [op, beq_self_eq_true, if_true]
  rw [frameDue_latest (by exact cut), abilityFrame, op]

/-! ## The line through a judgement and the parts -/

/-- A judgement leaves the transmit side. -/
theorem judged_line (s : State) (interval : Nat) (count : Option Epoch) :
    (s.judged interval count).bus.cutOff = s.bus.cutOff ∧ (s.judged interval count).bus.latest = s.bus.latest := by
  rw [(judged_bus s interval count).1]
  exact ⟨rfl, rfl⟩

/-- The parts inside a pulse that brings no entry, by the line. -/
theorem takeTasks_own_bus {u : State} (entry : u.pulse.entry = false) :
    (takeTasks ownTasks u).bus = (takeStart (takeDecide u)).bus := by
  rw [takeTasks_own_noEntry entry]
  simp

/-- The state that arrives at the parts of an EPOCH pulse outside LISTENING, by the line and what a frame carries. -/
theorem pulseArrives_line {interval : Nat} {s : State} (op : s.align.opState ≠ .listening) :
    (pulseArrives interval s).bus.cutOff = s.bus.cutOff ∧ (pulseArrives interval s).bus.latest = s.bus.latest := by
  have stays : (countEdge (s.judged interval (s.align.epoch.map (· + 1)))).align.opState ≠ .listening := by
    rw [(countEdge_keeps _).2.2.2.2.2.2.2.1, judged_align]
    exact op
  have bus : (pulseArrives interval s).bus = (s.judged interval (s.align.epoch.map (· + 1))).bus := by
    rw [pulseArrives_eq]
    dsimp only
    rw [listenPulse_elsewhere stays]
    exact (countEdge_keeps _).2.2.2.2.2.1
  rw [bus]
  exact judged_line _ _ _

/-- The judgement of a MARK, by the line and by what a frame carries. -/
theorem markJudged_line (interval : Nat) (s : State) :
    ((s.markJudged interval).bus.cutOff = s.bus.cutOff ∧ (s.markJudged interval).bus.latest = s.bus.latest) ∧
      (s.markJudged interval).align.station = s.align.station ∧ (s.markJudged interval).align.mode = s.align.mode ∧
      (s.markJudged interval).align.opState = s.align.opState ∧ (s.markJudged interval).config = s.config := by
  obtain ⟨timing, align⟩ := markJudged_align interval s
  have line := judged_line (testSlip s) interval (some 0)
  have slipped : (testSlip s).bus = s.bus := by simp
  rw [slipped] at line
  have config := (judged_rest (testSlip s) interval (some 0)).2.2.2.2.1
  refine ⟨line, by rw [align], by rw [align], by rw [align], config.trans (by simp)⟩

/-! ## The pulses -/

section Pulses

variable {interval : Nat} {s : State}

/-- Out of tolerance in OPERATING an EPOCH pulse announces the aborted target, or the epoch two on. -/
theorem epochPulse_fault_latest (op : s.align.opState = .operating) (faults : s.align.Faults interval)
    (cut : s.bus.cutOff = false) :
    (takeTasks ownTasks (pulseArrives interval s)).bus.latest =
      some
        (.announce s.align.station .holding
          (match s.engine.run with
            | some r => r.target
            | none => (s.align.epoch.map (· + 1)).getD 0 + 2) 0 0 0 s.align.mode) := by
  obtain ⟨operating, entry, decide, counts, -⟩ := pulseArrives_due op faults
  obtain ⟨-, -, -, -, bus, -⟩ := takeTasks_own_enters operating entry decide counts
  obtain ⟨timing, align⟩ := pulseArrives_align interval s
  have line := pulseArrives_line (interval := interval) (s := s) (by rw [op]; decide)
  have engine : (pulseArrives interval s).engine = s.engine := by simp
  have at_n : now (pulseArrives interval s) = (s.align.epoch.map (· + 1)).getD 0 := by rw [now, align]
  have target : holdingTarget (pulseArrives interval s).entryTaken =
      match s.engine.run with
      | some r => r.target
      | none => (s.align.epoch.map (· + 1)).getD 0 + 2 := by
    rw [← engine, ← at_n]
    rfl
  have same : (pulseArrives interval s).entryTaken.align = (pulseArrives interval s).align := rfl
  rw [bus, enterHolding_latest (s := (pulseArrives interval s).entryTaken) (line.1.trans cut), target, same, align]

theorem markPulse_fault_latest (op : s.align.opState = .operating) (faults : s.align.Faults interval)
    (cut : s.bus.cutOff = false) :
    (takeTasks ownTasks (markArrives interval s)).bus.latest =
      some
        (.announce s.align.station .holding
          (match s.engine.run with
            | some r => r.target
            | none => 0 + 2) 0 0 0 s.align.mode) := by
  have worked := markWorked_faults op faults
  have holds : (s.markWorked interval).align.opState = .holding := by
    rw [worked]
    exact (markEntered_faults op faults).1.enters.op
  obtain ⟨⟨lineCut, -⟩, station, mode, -, -⟩ := markJudged_line interval s
  have engine : (s.markJudged interval).engine = s.engine := (markCounted s interval).engine
  have at_0 : now (s.markJudged interval) = 0 := by
    have epoch : (s.markJudged interval).align.epoch = some 0 := (markCounted s interval).align.epoch
    rw [now, epoch]
    rfl
  have target : holdingTarget (s.markJudged interval) =
      match s.engine.run with
      | some r => r.target
      | none => 0 + 2 := by
    rw [← engine, ← at_0]
    rfl
  have latest := enterHolding_latest (s := s.markJudged interval) (lineCut.trans cut)
  rw [target, station, mode] at latest
  have arrived : (markArrives interval s).bus = (enterHolding (s.markJudged interval)).bus := by
    rw [markArrives_eq, worked]
    rfl
  rw [markPulse_ages (by rw [holds]; decide), ← latest, ← arrived]
  simp

/-- With the run started first the entry announces its target. -/
theorem epochPulse_start_fault_latest (op : s.align.opState = .operating) (faults : s.align.Faults interval)
    (mode : s.align.mode.isSome = true) (cut : s.bus.cutOff = false) :
    (takeTasks ownTasks (takeTasks [.start] (pulseArrives interval s))).bus.latest =
      some (.announce s.align.station .holding ((s.align.epoch.map (· + 1)).getD 0 + 2) 0 0 0 s.align.mode) := by
  obtain ⟨align, ⟨entry, decide, counts⟩, ⟨r, run, target⟩, -⟩ := pulse_starts op faults mode
  obtain ⟨operating, -⟩ := pulseArrives_due op faults
  obtain ⟨timing, arrived⟩ := pulseArrives_align interval s
  have line := pulseArrives_line (interval := interval) (s := s) (by rw [op]; decide)
  have lineCut : (takeTask (pulseArrives interval s) .start).bus.cutOff = false := by
    show (takeStart (pulseArrives interval s)).bus.cutOff = _
    unfold takeStart
    split
    · rw [startRun_cutOff]
      exact line.1.trans cut
    · exact line.1.trans cut
  show (takeTasks ownTasks (takeTask (pulseArrives interval s) .start)).bus.latest = _
  generalize takeTask (pulseArrives interval s) .start = v at *
  obtain ⟨-, -, -, -, bus, -⟩ := takeTasks_own_enters (by rw [align, operating]) entry decide counts
  have held : holdingTarget v.entryTaken = (s.align.epoch.map (· + 1)).getD 0 + 2 := by
    rw [← target, holdingTarget, show v.entryTaken.engine.run = some r from run]
  have same : v.entryTaken.align = v.align := rfl
  rw [bus, enterHolding_latest (s := v.entryTaken) lineCut, held, same, align, arrived]

/-- Within tolerance in OPERATING an EPOCH pulse announces the target of the run it aborts, and nothing without one. -/
theorem epochPulse_quiet_latest (op : s.align.opState = .operating) (set : s.align.watch ≠ .unset)
    (quiet : ¬s.align.Faults interval) (cut : s.bus.cutOff = false) :
    let t := takeTasks ownTasks (pulseArrives interval s)
    (∀ r, s.engine.run = some r → t.bus.latest =
      some (.announce s.align.station .operating r.target 0 s.edge.ownSet s.edge.demand s.align.mode)) ∧
      (s.engine.run = none → t.bus.latest = s.bus.latest) := by
  intro t
  obtain ⟨timing, align⟩ := pulseArrives_align interval s
  obtain ⟨-, -, ownSet, demand⟩ := pulseArrives_rest (interval := interval) (.inl set)
  have line := pulseArrives_line (interval := interval) (s := s) (by rw [op]; decide)
  have work := pulseArrives_pulse interval s
  rw [op] at work
  have engine : (pulseArrives interval s).engine = s.engine := by simp
  have entry := (pulseArrives_arrived (s := s) fun _ => quiet).entry
  have decided : takeDecide (pulseArrives interval s) = pulseArrives interval s :=
    takeTask_notDue (k := .decide) (by rw [work]; rfl)
  have start : (pulseArrives interval s).pulse.start = true := by rw [work]; rfl
  generalize hx : ({ pulseArrives interval s with
    pulse := { (pulseArrives interval s).pulse with start := false } } : State) = x
  have xAlign : x.align = (pulseArrives interval s).align := by rw [← hx]
  have xEdge : x.edge = (pulseArrives interval s).edge := by rw [← hx]
  have xEngine : x.engine = s.engine := by rw [← hx, ← engine]
  have xBus : x.bus = (pulseArrives interval s).bus := by rw [← hx]
  have bus : t.bus = (abortRun true x).bus := by
    rw [show t.bus = _ from takeTasks_own_bus entry, decided, takeStart, start, if_pos rfl, hx]
    exact startRun_bus (by rw [xAlign, align]; exact op)
  refine ⟨fun r run => ?_, fun none => ?_⟩
  · rw [bus, abortRun_latest (r := r) (by rw [xEngine, run]) (by rw [xBus, line.1, cut]), xEdge, ownSet, demand, xAlign,
      align, op]
  · rw [bus, abortRun, xEngine, none]
    show x.bus.latest = _
    rw [xBus, line.2]

theorem markPulse_quiet_latest (op : s.align.opState = .operating) (quiet : ¬s.align.Faults interval)
    (cut : s.bus.cutOff = false) :
    let t := takeTasks ownTasks (markArrives interval s)
    (∀ r, s.engine.run = some r → t.bus.latest =
      some (.announce s.align.station .operating r.target 0 s.edge.ownSet s.edge.demand s.align.mode)) ∧
      (s.engine.run = none → t.bus.latest = s.bus.latest) := by
  intro t
  have counted := markCounted s interval
  have worked := markWorked_recovers op quiet
  have holds : (s.markWorked interval).align.opState = .operating := by
    rw [worked, (recoverMarker_keeps _ _).2.2.1, counted.opState, op]
  obtain ⟨line, station, mode, -, -⟩ := markJudged_line interval s
  have cAlign : (countContexts (s.markJudged interval)).align = (s.markJudged interval).align := rfl
  have cBus : (countContexts (s.markJudged interval)).bus = (s.markJudged interval).bus := rfl
  have bus : t.bus = (abortRun true (countContexts (s.markJudged interval))).bus := by
    have arrived : (markArrives interval s).bus = (s.markWorked interval).bus := by
      rw [markArrives_eq]
      rfl
    rw [show t = _ from markPulse_ages (by rw [holds]; decide), (takeAgeing_keeps _).2.2.2.2.2.2.1, arrived, worked]
    simp [recoverMarker, emptyCarry]
  refine ⟨fun r run => ?_, fun none => ?_⟩
  · rw [bus, abortRun_latest (r := r) (by rw [counted.engine, run]) (by rw [cBus, line.1, cut]), counted.edge,
      counted.opState, op, cAlign, station, mode]
  · rw [bus, abortRun, counted.engine, none]
    exact line.2

/-- In LISTENING both pulses make an ABILITY due. -/
theorem epochPulse_listening_latest (op : s.align.opState = .listening) (cut : s.bus.cutOff = false) :
    (takeTasks ownTasks (pulseArrives interval s)).bus.latest =
      some (.ability s.align.station .listening { counts := s.config.counts, edge := s.config.edgeCapable }) := by
  have quiet : s.align.opState = .operating → ¬s.align.Faults interval := fun h => by rw [op] at h; cases h
  have work := pulseArrives_pulse interval s
  rw [op] at work
  have judged := judged_align s interval (s.align.epoch.map (· + 1))
  have line := judged_line s interval (s.align.epoch.map (· + 1))
  have config := (judged_rest s interval (s.align.epoch.map (· + 1))).2.2.2.2.1
  have started : takeStart (takeDecide (pulseArrives interval s)) = takeDecide (pulseArrives interval s) :=
    takeTask_notDue (k := .start) (takeTask_off (k := .decide) (j := .start) (by rw [work]; rfl))
  have arrived : (pulseArrives interval s).bus =
      (listenPulse (countEdge (s.judged interval (s.align.epoch.map (· + 1))))).bus := by
    rw [pulseArrives_eq]
    rfl
  rw [takeTasks_own_bus (pulseArrives_arrived quiet).entry, started, (takeDecide_keeps _).2.2.2.2.2.1, arrived]
  generalize s.judged interval (s.align.epoch.map (· + 1)) = j at *
  have station : (countEdge j).align.station = s.align.station := by
    rw [(countEdge_keeps _).2.2.2.2.2.2.2.1, judged]
  have listening : (countEdge j).align.opState = .listening := by
    rw [(countEdge_keeps _).2.2.2.2.2.2.2.1, judged]
    exact op
  have counted : (countEdge j).config = s.config := by rw [← config]; simp
  have uncut : (countEdge j).bus.cutOff = false := by rw [← cut, ← line.1]; simp
  rw [listenPulse_latest listening uncut, station, counted]

theorem markPulse_listening_latest (op : s.align.opState = .listening) (cut : s.bus.cutOff = false) :
    (takeTasks ownTasks (markArrives interval s)).bus.latest =
      some (.ability s.align.station .listening { counts := s.config.counts, edge := s.config.edgeCapable }) := by
  have quiet : s.align.opState = .operating → ¬s.align.Faults interval := fun h => by rw [op] at h; cases h
  obtain ⟨line, station, -, listening, config⟩ := markJudged_line interval s
  have off : (markArrives interval s).pulse.start = false := by
    rw [markArrives_eq]
    rfl
  have started : takeStart (takeDecide (markArrives interval s)) = takeDecide (markArrives interval s) :=
    takeTask_notDue (k := .start) (takeTask_off (k := .decide) (j := .start) off)
  have arrived : (markArrives interval s).bus = (listenPulse (countContexts (s.markJudged interval))).bus := by
    rw [markArrives_eq, markWorked_listening op]
    rfl
  have latest := listenPulse_latest (s := countContexts (s.markJudged interval)) (listening.trans op) (line.1.trans cut)
  rw [takeTasks_own_bus (markArrives_arrived quiet).entry, started, (takeDecide_keeps _).2.2.2.2.2.1, arrived, latest,
    ← station, ← config]
  rfl

end Pulses

/-! ## The statement -/

/-- A completion announces its target with the plan power as claim (R116). -/
theorem completeRun_latest (r : Run) {s : State} (cut : s.bus.cutOff = false) :
    (completeRun r s).bus.latest =
      some (.announce s.align.station s.align.opState r.target (completeRun r s).power.pPrev s.edge.ownSet
        (completeRun r s).edge.demand s.align.mode) := by
  have bus : (completeRun r s).bus = (frameDue (announcement (planQueued r s) r.target (planPower (deliveredGrants s r)))
      (planQueued r s)).bus := by
    rw [completeRun_eq]
    simp
  have kept : (planQueued r s).bus = s.bus ∧ (planQueued r s).align = s.align := by
    simp [planQueued, handedOff, handFigures, enterBatch]
  have edge : (planQueued r s).edge = (completeRun r s).edge := by
    rw [completeRun_eq]
    simp
  rw [bus, frameDue_latest (by rw [kept.1, cut]), completeRun_power, announcement, kept.2, edge, completeRun_edge]

/-- The entry that a loss of link or pulses brings in OPERATING announces as the entry does. -/
theorem loss_latest {k : EventKind} (n : Nat) {s : State} (op : s.align.opState = .operating)
    (cut : s.bus.cutOff = false) :
    (holdIfOperating (setEvent k n .none s)).bus.latest =
      some
        (.announce s.align.station .holding
          (match s.engine.run with
            | some r => r.target
            | none => epochAfter (now s) 2) 0 0 0 s.align.mode) := by
  have bus : (setEvent k n .none s).bus = s.bus := by simp
  have align : (setEvent k n .none s).align = s.align := by simp
  have engine : (setEvent k n .none s).engine = s.engine := by simp
  generalize setEvent k n .none s = u at *
  have at_s : now u = now s := by simp only [now, align]
  have entered : holdIfOperating u = enterHolding u := by simp [holdIfOperating, align, op]
  have target : holdingTarget u =
      match s.engine.run with
      | some r => r.target
      | none => epochAfter (now s) 2 := by
    rw [← engine, ← at_s]
    rfl
  rw [entered, enterHolding_latest (by rw [bus, cut]), target, align]

/-- Settles O41, frame by frame. -/
theorem framesBecomeDue : Obligations.FramesBecomeDue := by
  intro s cut
  refine ⟨fun f => ⟨fun sending => ?_, fun other => ?_⟩, fun idle => ⟨fun r run room => ?_, fun c op loss => ?_,
    fun c interval op faults => ⟨fun n pulse => ?_, fun e epoch mode pulse => ?_⟩,
    fun c interval r op watch regular pulse => ?_, fun c interval op pulse => ?_⟩⟩
  · rw [frameDue, cut, if_neg Bool.false_ne_true, sending]
  · rw [frameDue, cut, if_neg Bool.false_ne_true]
    cases access : s.bus.access with
    | sending => exact absurd access other
    | empty | waiting | deferring => rfl
  · exact ⟨_, exec_runCompletion_completes idle run room, completeRun_latest r cut⟩
  · rcases loss with ⟨rfl, valid⟩ | ⟨rfl, watch⟩
    · have taken : exec .linkLoss s = .next (holdIfOperating (setEvent .linkLoss (epochField s.align.epoch) .none
          { s with link := { s.link with lost := true, timer := Config.linkLossTime, idleRun := 0 } })) := by
        show Host.Outcome.next (loseLink (finishPulse s)) = _
        rw [finishPulse_idle idle, loseLink, valid, if_neg Bool.false_ne_true]
      exact ⟨_, taken, loss_latest _ op cut⟩
    · have taken : exec .epochLoss s =
          .next (holdIfOperating (setEvent .epochLoss (epochField s.align.epoch) .none (setWatch .lost s))) := by
        show Host.Outcome.next (loseEpoch (finishPulse s)) = _
        rw [finishPulse_idle idle, loseEpoch]
        rcases watch with watch | watch <;> rw [watch]
      exact ⟨_, taken, loss_latest (s := setWatch .lost s) _ op cut⟩
  · have configured : s.align.opState ≠ .unconfigured := by rw [op]; decide
    rcases pulse with ⟨rfl, rfl⟩ | ⟨rfl, rfl⟩
    · exact ⟨_, exec_epochPulse idle configured, epochPulse_fault_latest op faults cut⟩
    · exact ⟨_, exec_markPulse idle configured, markPulse_fault_latest op faults cut⟩
  · subst pulse
    have latest := epochPulse_start_fault_latest op faults mode cut
    have target : (s.align.epoch.map (· + 1)).getD 0 + 2 = e + 3 := by
      rw [epoch]
      show e + 1 + 2 = _
      rw [add_assoc]
      rfl
    rw [target] at latest
    exact ⟨_, exec_epochPulse idle (by rw [op]; decide), latest⟩
  · have quiet : ¬s.align.Faults interval := by
      rintro (⟨unset, -⟩ | ⟨-, out⟩)
      · rw [watch] at unset
        cases unset
      · rw [regular] at out
        cases out
    have configured : s.align.opState ≠ .unconfigured := by rw [op]; decide
    rcases pulse with rfl | rfl
    · obtain ⟨aborted, none⟩ := epochPulse_quiet_latest op (by rw [watch]; decide) quiet cut
      exact ⟨_, exec_epochPulse idle configured, aborted r, none⟩
    · obtain ⟨aborted, none⟩ := markPulse_quiet_latest op quiet cut
      exact ⟨_, exec_markPulse idle configured, aborted r, none⟩
  · have configured : s.align.opState ≠ .unconfigured := by rw [op]; decide
    rcases pulse with rfl | rfl
    · exact ⟨_, exec_epochPulse idle configured, epochPulse_listening_latest op cut⟩
    · exact ⟨_, exec_markPulse idle configured, markPulse_listening_latest op cut⟩

end Sys2Proof.Machine
end
